-- ==== Sys2Proof/Word.lean ====
section
/-! DEFINITION. Bytes and words, the number types of the manual's "Principal figures" (00_scope), fixed-length
tables, and sets held as membership rows. -/
namespace Sys2Proof

/-- One byte on a wire (chapter 11). -/
abbrev Byte := BitVec 8
/-- A value, limit, safe value or park value: signed 16 bits, two's complement (R178). -/
abbrev Value := BitVec 16
/-- A record's key, 0x0001 to 0xFFFF where it names a record (R2). -/
abbrev Key := BitVec 16
/-- A record's revision, 0 to 65535, wrapping (R5). -/
abbrev Revision := BitVec 16
/-- A slot's incarnation, 0 to 255, wrapping (R7). -/
abbrev Incarnation := BitVec 8
/-- A session's epoch, 0 to 255; 0 means none issued (R46). -/
abbrev Epoch := BitVec 8
/-- An agent, 0 to 7; agent 0 is the supervisor. -/
abbrev Agent := Fin 8
/-- A rights class, 0 to 7. -/
abbrev ClassNo := Fin 8
/-- An apply group, 0 to 7. -/
abbrev GroupNo := Fin 8
/-- An output channel, 0 to 31. -/
abbrev ChannelNo := Fin 32
/-- An APPLY strobe input, 0 to 3. -/
abbrev StrobeNo := Fin 4
/-- A record slot, 0 to 255. -/
abbrev SlotNo := Fin 256
/-- A client port: P0 is 0, P1 is 1. -/
abbrev PortId := Fin 2

/-- A table with exactly `n` cells. -/
structure Tab (n : Nat) (α : Type) where
  cells : List α
  size_eq : cells.length = n
  deriving DecidableEq, Repr

namespace Tab
variable {n : Nat} {α β : Type}

def get (t : Tab n α) (i : Fin n) : α := t.cells[i.val]'(by have := t.size_eq; have := i.isLt; omega)
def set (t : Tab n α) (i : Fin n) (v : α) : Tab n α := ⟨t.cells.set i.val v, by simpa using t.size_eq⟩
def ofFn (f : Fin n → α) : Tab n α := ⟨List.ofFn f, by simp⟩
def replicate (n : Nat) (v : α) : Tab n α := ⟨List.replicate n v, by simp⟩
def map (f : α → β) (t : Tab n α) : Tab n β := ⟨t.cells.map f, by simpa using t.size_eq⟩
def mapFin (f : Fin n → α → β) (t : Tab n α) : Tab n β := ofFn fun i => f i (t.get i)

@[simp] theorem get_ofFn (f : Fin n → α) (i : Fin n) : (ofFn f).get i = f i := by simp [get, ofFn]
@[simp] theorem get_replicate (v : α) (i : Fin n) : (replicate n v).get i = v := by simp [get, replicate]
@[simp] theorem get_map (f : α → β) (t : Tab n α) (i : Fin n) : (t.map f).get i = f (t.get i) := by simp [get, map]
@[simp] theorem get_mapFin (f : Fin n → α → β) (t : Tab n α) (i : Fin n) :
    (t.mapFin f).get i = f i (t.get i) := by simp [mapFin]
@[simp] theorem get_set_self (t : Tab n α) (i : Fin n) (v : α) : (t.set i v).get i = v := by simp [get, set]
@[simp] theorem get_set_ne (t : Tab n α) {i j : Fin n} (v : α) (h : i ≠ j) : (t.set i v).get j = t.get j := by
  have hv : i.val ≠ j.val := fun e => h (Fin.ext e)
  simp [get, set, hv]
theorem get_set (t : Tab n α) (i j : Fin n) (v : α) : (t.set i v).get j = if i = j then v else t.get j := by
  split
  · next h => subst h; simp
  · next h => simp [h]
theorem ext_get {t u : Tab n α} (h : ∀ i, t.get i = u.get i) : t = u := by
  cases t with | mk a ha => cases u with | mk b hb =>
  have : a = b := by
    refine List.ext_getElem (by omega) fun i h1 h2 => ?_
    simpa [get] using h ⟨i, by omega⟩
  subst this; rfl

end Tab

/-- A set drawn from `n` things: without order or duplicates, as one membership row. -/
abbrev FinSet (n : Nat) := Tab n Bool
abbrev AgentSet := FinSet 8
abbrev GroupSet := FinSet 8

namespace FinSet
variable {n : Nat}

def empty (n : Nat) : FinSet n := Tab.replicate n false
def full (n : Nat) : FinSet n := Tab.replicate n true
def mem (s : FinSet n) (i : Fin n) : Bool := Tab.get s i
def insert (s : FinSet n) (i : Fin n) : FinSet n := Tab.set s i true
def erase (s : FinSet n) (i : Fin n) : FinSet n := Tab.set s i false
def isEmpty (s : FinSet n) : Bool := !s.cells.any id

@[simp] theorem mem_empty (i : Fin n) : (empty n).mem i = false := by simp [mem, empty]
@[simp] theorem mem_full (i : Fin n) : (full n).mem i = true := by simp [mem, full]
@[simp] theorem mem_insert (s : FinSet n) (i j : Fin n) : (s.insert i).mem j = (decide (i = j) || s.mem j) := by
  by_cases h : i = j <;> simp [mem, insert, h]
@[simp] theorem mem_erase (s : FinSet n) (i j : Fin n) : (s.erase i).mem j = (!decide (i = j) && s.mem j) := by
  by_cases h : i = j <;> simp [mem, erase, h]

end FinSet

end Sys2Proof
end

