-- ==== Sys2Proof/Syntax.lean ====
section
/-! DEFINITION. The commands of the block: one constructor for each row of spec/opcode_table.json, with its
operands. -/
namespace Sys2Proof

/-- Which part of a request one command of an engine request carries out (log 3). The steps are TAKE (R164), the
checks and the execution (R36), and DELIVERY (R165). -/
inductive Extent where
  /-- take, checks, execution and delivery: the whole step -/
  | whole
  /-- take, checks and execution; the response stays in the engine's hands and the port stays TAKEN -/
  | take
  /-- delivery of the response that an earlier `take` left in the engine's hands -/
  | finish
  deriving DecidableEq, Repr

/-- Whether the expiries of the timers that a tick brings to zero are carried out within the tick, or are left to
be taken as events of their own (log 5). -/
inductive Expiries where
  | within
  | apart
  deriving DecidableEq, Repr

/-- The commands. `p` is the port concerned; `bits` is the number of bits clocked after a transaction's first byte. -/
inductive Instr where
  -- chapter 9: transactions, at the deassertion of nCS
  | submit (p : PortId) (frame : List Byte) (extra : Fin 8)
  | collect (p : PortId) (bits : Nat)
  | status (p : PortId) (bits : Nat)
  | cancel (p : PortId) (bits : Nat)
  | resetPort (p : PortId) (bits : Nat)
  | unknownTransaction (p : PortId) (first : Byte) (bits : Nat)
  -- engine requests, of the port the arbiter grants
  | unknownKind (p : PortId) (x : Extent)
  | attach (p : PortId) (x : Extent)
  | detach (p : PortId) (x : Extent)
  | keepalive (p : PortId) (x : Extent)
  | queryAgent (p : PortId) (x : Extent)
  | restart (p : PortId) (x : Extent)
  | setRights (p : PortId) (x : Extent)
  | create (p : PortId) (x : Extent)
  | retire (p : PortId) (x : Extent)
  | lookup (p : PortId) (x : Extent)
  | read (p : PortId) (x : Extent)
  | enumerate (p : PortId) (x : Extent)
  | claim (p : PortId) (x : Extent)
  | release (p : PortId) (x : Extent)
  | cancelClaim (p : PortId) (x : Extent)
  | revoke (p : PortId) (x : Extent)
  | restore (p : PortId) (x : Extent)
  | stage (p : PortId) (x : Extent)
  | unstage (p : PortId) (x : Extent)
  | tune (p : PortId) (x : Extent)
  | apply (p : PortId) (x : Extent)
  | setGroup (p : PortId) (x : Extent)
  | queryGroup (p : PortId) (x : Extent)
  | watch (p : PortId) (x : Extent)
  | unwatch (p : PortId) (x : Extent)
  | fetchAttention (p : PortId) (x : Extent)
  | bind (p : PortId) (x : Extent)
  | unbind (p : PortId) (x : Extent)
  | setPark (p : PortId) (x : Extent)
  | queryChannel (p : PortId) (x : Extent)
  | linkResume (p : PortId) (x : Extent)
  -- internal work
  | lapseItem
  | sweepStart
  | sweepStep
  -- timers
  | tick (e : Expiries)
  | keepaliveExpiry (a : Agent)
  | periodExpiry (g : GroupNo)
  -- strobes
  | applyStrobeEdge (n : StrobeNo)
  -- update link
  | takeIntoFlight
  | frameEnd
  | acknowledge
  | acknowledgeTimerExpiry
  -- reset and start-up: the level of each port's nCS at the release (true is low); the level of each APPLY input
  | nrstAssert
  | nrstRelease (ncs0Low ncs1Low : Bool)
  | readyRise (levels : FinSet 4)
  -- further transaction events
  | endOfFirstByte (p : PortId) (first : Byte)
  | noCompleteFirstByte (p : PortId) (edges : Fin 8)
  | ignoredAssertionAtRelease (p : PortId)
  | strobeFallingEdge (n : StrobeNo)
  deriving DecidableEq, Repr

/-- The code of each transaction kind, the first byte of a transaction (R177). -/
def codeSubmit : Byte := 0xA1
def codeCollect : Byte := 0xA2
def codeStatus : Byte := 0xA3
def codeCancel : Byte := 0xA4
def codeResetPort : Byte := 0xA5

/-- The five codes of R177. -/
def transactionCodes : List Byte := [codeSubmit, codeCollect, codeStatus, codeCancel, codeResetPort]

end Sys2Proof
end

