-- ==== Sys2Proof/WellFormed.lean ====
section
/-! DEFINITION. When a command is well formed. The operand types leave one relation to check. -/
namespace Sys2Proof

/-- An UNKNOWN_TRANSACTION's first byte names none of the five kinds of R177. Every other command is well formed:
its operands are bounded by their types. -/
def Instr.wellFormed (i : Instr) : Bool :=
  match i with
  | .unknownTransaction _ first _ => !transactionCodes.contains first
  | _ => true

end Sys2Proof
end

