-- ==== Sys2Proof/Machine/Bytes.lean ====
section
/-! DEFINITION. Byte order, sets as bytes, and bytes as bounded numbers (chapter 11). -/
namespace Sys2Proof

/-- The number whose bits are the list, least significant first. -/
def bitsToNat : List Bool → Nat
  | [] => 0
  | b :: bs => (if b then 1 else 0) + 2 * bitsToNat bs

/-- A set as one byte: bit n is set when n is a member (R178). -/
def FinSet.toByte {n : Nat} (s : FinSet n) : Byte := BitVec.ofNat 8 (bitsToNat s.cells)
/-- The set whose members are the set bits of a byte (R178). -/
def FinSet.ofByte (n : Nat) (b : Byte) : FinSet n := Tab.ofFn fun i => b.getLsbD i.val

/-- A 16-bit word of two bytes, most significant byte first (11, "All multi-byte fields"). -/
def word16 (hi lo : Byte) : BitVec 16 := hi ++ lo
/-- The two bytes of a 16-bit word, most significant byte first. -/
def bytes16 (w : BitVec 16) : List Byte := [w.extractLsb' 8 8, w.extractLsb' 0 8]

/-- A number as one byte. -/
def byteOf (n : Nat) : Byte := BitVec.ofNat 8 n
/-- A number as two bytes. -/
def bytesOf16 (n : Nat) : List Byte := bytes16 (BitVec.ofNat 16 n)

/-- A byte as a number below `n`, if it is one. -/
def finOf (n : Nat) (b : Byte) : Option (Fin n) := if h : b.toNat < n then some ⟨b.toNat, h⟩ else none

end Sys2Proof
end

