-- ==== Sys2Proof/Config.lean ====
section
/-! DEFINITION. The figures of the manual (00_scope, "Principal figures") and the free values: what the manual
leaves open, as constants without a body. -/
namespace Sys2Proof.Config

/-- Claim queue per record (R69). -/
def queueCap : Nat := 4
/-- Claim-entry pool (R70). -/
def poolSize : Nat := 64
/-- Attention list per agent (R130). -/
def attentionCap : Nat := 24
/-- Attention entries returned per fetch (R135). -/
def fetchMax : Nat := 8
/-- Records returned per ENUMERATE (R25). -/
def enumMax : Nat := 6
/-- Link acknowledge timer, in ticks (R149). -/
def ackTicks : Nat := 2
/-- Link attempts per frame (R151). -/
def maxAttempts : Nat := 4
/-- Keepalive period, least and greatest (R40). -/
def minKeepalive : Nat := 10
def maxKeepalive : Nat := 60000
/-- Apply period, greatest; the least is 1 (R40). -/
def maxApplyPeriod : Nat := 60000
/-- Apply period after power-on (R106). -/
def powerOnPeriod : Nat := 1000
/-- Smallest request frame (R178). -/
def minFrame : Nat := 7

/-- FREE VALUE (log 8). What SDO carries in a transaction run while nRST is low: "the ports answer no transaction
and shift out nothing the controller may rely on" (R173). Applied to the draw counter of State. -/
opaque resetShiftOut : Nat → Byte

/-- FREE VALUE (log 9). The order in which RESTART queues the PARKED notices of the channels it unbinds (R67 does
not give it): a channel of smaller rank is queued first, equal ranks by channel number. Applied to the draw
counter of State. -/
opaque restartRank : Nat → ChannelNo → Nat

end Sys2Proof.Config
end

