-- ==== Sys2Proof/Machine/State.lean ====
section
/-! DEFINITION. The state of the FH-418 as plain data, its value after reset, and the reasons a step can stop. -/
namespace Sys2Proof.Machine

/-- The reasons a command can stop the block with a fault. There are none: the manual describes no condition that
stops the part (R36 answers every request with an outcome, R160 every transaction with a LAST code). -/
inductive Fault where
  deriving DecidableEq, Repr

/-- The reasons a command can be refused by the model. -/
inductive Refusal where
  /-- Raised by an arm of `exec` for a command that has no meaning yet (safe). No arm of this model raises it. -/
  | notModelled (mnemonic : String)
  deriving DecidableEq, Repr

/-- The part's life: nRST low (R173), initialising (R174), READY high (R175). -/
inductive Phase where
  | inReset
  | initialising
  | ready
  deriving DecidableEq, Repr

/-! ### Records (chapter 1) -/

/-- The lapse policies (R122). -/
inductive Policy where
  | hold
  | safeNow
  | safeAtApply
  deriving DecidableEq, Repr

/-- A record's state, with the owner that is present exactly while it is HELD (R2, R3, R6). OPEN is `opened`. -/
inductive RecState where
  | opened
  | held (owner : Agent)
  | lapsed
  deriving DecidableEq, Repr

/-- The pair (slot, incarnation) by which a request names a record (R8). -/
structure Handle where
  slot : SlotNo
  inc : Incarnation
  deriving DecidableEq, Repr

/-- An active record (R2); `queue` is the claim queue, oldest first (R69). -/
structure Record where
  key : Key
  cls : ClassNo
  group : GroupNo
  state : RecState
  min : Value
  max : Value
  live : Value
  staged : Option Value
  safe : Value
  policy : Policy
  safePending : Bool
  revision : Revision
  binding : Option ChannelNo
  queue : List Agent
  watchers : AgentSet
  deriving DecidableEq, Repr

/-- A slot: its incarnation, and the active record or FREE (R1, R7). -/
structure Slot where
  inc : Incarnation
  record : Option Record
  deriving DecidableEq, Repr

/-! ### Rights (chapter 2) -/

/-- The seven rights, in the bit order of R178. -/
inductive Right where
  | read
  | watch
  | claim
  | stage
  | tune
  | create
  | retire
  deriving DecidableEq, Repr

/-- A rights set: membership of the seven rights, by bit number (R30, R178). -/
abbrev RightSet := FinSet 7

/-! ### Agents and sessions (chapters 3 and 7) -/

inductive SessState where
  | detached
  | attached
  | lost
  deriving DecidableEq, Repr

/-- The attention reasons, in the bit order of R180. -/
inductive Reason where
  | granted
  | grantedAfterLapse
  | revoked
  | lapsed
  | changed
  | retired
  deriving DecidableEq, Repr

/-- A set of reasons, by bit number (R130, R180). -/
abbrev ReasonSet := FinSet 6

/-- An entry of an attention list (R130). -/
structure Entry where
  handle : Handle
  key : Key
  reasons : ReasonSet
  deriving DecidableEq, Repr

/-- What the part holds for one agent: its session record (R46), its keepalive countdown and expired flag (R50,
R51; `none` is stopped), and its attention list, oldest first (R130). A countdown at 0 has been brought there by a
tick whose expiries are still to be taken (log 5). -/
structure AgentRow where
  state : SessState
  epoch : Epoch
  port : Option PortId
  period : Option Nat
  overflow : Bool
  countdown : Option Nat
  expired : Bool
  attention : List Entry
  deriving DecidableEq, Repr

/-! ### Groups (chapter 6) -/

inductive Trigger where
  | onStage
  | strobe
  | period
  | command
  deriving DecidableEq, Repr

/-- A group record (R106); `counter` is the period counter, `none` when stopped, 0 when a tick has brought it there
and its expiry is still to be taken (log 5). -/
structure Group where
  trigger : Trigger
  strobe : StrobeNo
  period : Nat
  applyAgents : AgentSet
  pending : Bool
  counter : Option Nat
  deriving DecidableEq, Repr

/-- The active sweep: the sweeping group, and the last slot visited (R118, R119). -/
structure Sweep where
  group : GroupNo
  cursor : Option SlotNo
  deriving DecidableEq, Repr

/-! ### Output unit (chapter 8) -/

/-- A channel record (R139); waiting and in flight are read from the queue and the transmitter. -/
structure Channel where
  binding : Option SlotNo
  park : Value
  driven : Value
  acked : Value
  deriving DecidableEq, Repr

inductive UpdKind where
  | value
  | parked
  deriving DecidableEq, Repr

/-- A waiting entry of the update queue, or the frame in flight (R147, R149). -/
structure Update where
  channel : ChannelNo
  kind : UpdKind
  value : Value
  deriving DecidableEq, Repr

/-- The link transmitter (8.5): the frame in flight, the attempt, and in AWAIT_ACK the acknowledge timer, 0 when a
tick has brought it there and its expiry is still to be taken (log 5). STALLED holds attempt 4. -/
inductive Link where
  | idle
  | sending (f : Update) (attempt : Nat)
  | awaitAck (f : Update) (attempt : Nat) (timer : Nat)
  | stalled (f : Update)
  deriving DecidableEq, Repr

/-! ### Client ports, arbiter and engine (chapter 9) -/

/-- The LAST codes (R160); a FRAME_ERROR has its cause folded in (R177). -/
inductive LastCode where
  | none
  | accepted
  | occupied
  | notReady
  | collected
  | collectAborted
  | noResponse
  | cancelled
  | cancelTooLate
  | cancelNothing
  | portReset
  | unknownTransaction
  | frameIncompleteByte
  | frameLength
  | frameCrc
  deriving DecidableEq, Repr

/-- The request buffer (R157). -/
inductive ReqBuf where
  | empty
  | submitted (frame : List Byte)
  | taken
  deriving DecidableEq, Repr

/-- The transaction in progress on a port (R159): none; an assertion of nCS being ignored; or the kind read at the
end of the first byte, with what a COLLECT or a STATUS shall shift out as settled then (R166, R168). -/
inductive Txn where
  | idle
  | ignored
  | submit
  | collect (found : Option (List Byte))
  | status (statusByte lastByte : Byte)
  | cancel
  | resetPort
  | unknown
  deriving DecidableEq, Repr

/-- A client port (R157), with the transaction in progress and the bytes SDO carried in the latest transaction
(log 13). -/
structure Port where
  request : ReqBuf
  response : Option (List Byte)
  orphan : Bool
  last : LastCode
  txn : Txn
  sdo : List Byte
  deriving DecidableEq, Repr

/-- The arbiter's claimants (R163). -/
inductive Claimant where
  | internal
  | port (p : PortId)
  deriving DecidableEq, Repr

/-- The directory engine: free, or holding a port's taken request, with its kind code and its response built but
not delivered (R163, R164, R165). -/
inductive Engine where
  | free
  | busy (p : PortId) (code : Byte) (response : List Byte)
  deriving DecidableEq, Repr

/-! ### The whole part -/

/-- Everything the FH-418 holds (the inventory's "State" names the rule of each field), the model's own records of
its output pins `uldat` and `Port.sdo`, its draw counter, and the queue of commands waiting. -/
structure State where
  phase : Phase
  slots : Tab 256 Slot
  keyIndex : List (Key × SlotNo)
  freeList : List SlotNo
  /-- the rows of agents 1 to 7, in that order (R30, R31) -/
  rights : Tab 7 (Tab 8 RightSet)
  agents : Tab 8 AgentRow
  linkStalled : Bool
  lostAgents : AgentSet
  groups : Tab 8 Group
  sweep : Option Sweep
  /-- the level each APPLY input had when last seen; true is high (R108) -/
  applyLevels : FinSet 4
  channels : Tab 32 Channel
  updateQueue : List Update
  link : Link
  uldat : List Byte
  ports : Tab 2 Port
  pointer : Claimant
  engine : Engine
  freeDraws : Nat
  pending : List Instr
  deriving DecidableEq, Repr

/-- A slot after power-on reset (R28). -/
def Slot.powerOn : Slot := { inc := 0, record := none }

/-- An agent after power-on reset (R48). -/
def AgentRow.powerOn : AgentRow :=
  { state := .detached, epoch := 0, port := none, period := none, overflow := false, countdown := none,
    expired := false, attention := [] }

/-- A group after power-on reset (R106). -/
def Group.powerOn : Group :=
  { trigger := .onStage, strobe := 0, period := Config.powerOnPeriod, applyAgents := FinSet.empty 8,
    pending := false, counter := none }

/-- A channel after power-on reset (R139). -/
def Channel.powerOn : Channel := { binding := none, park := 0, driven := 0, acked := 0 }

/-- A port after power-on reset (R157). -/
def Port.powerOn : Port :=
  { request := .empty, response := none, orphan := false, last := .none, txn := .idle, sdo := [] }

/-- The part held in power-on reset: nRST low (R173). The free-slot list is built by the initialisation that
follows the release (R174, log 6). The values the manual does not give are named in logs 7, 12 and 13. -/
def State.reset : State :=
  { phase := .inReset
    slots := Tab.replicate 256 Slot.powerOn
    keyIndex := []
    freeList := []
    rights := Tab.replicate 7 (Tab.replicate 8 (FinSet.empty 7))
    agents := Tab.replicate 8 AgentRow.powerOn
    linkStalled := false
    lostAgents := FinSet.empty 8
    groups := Tab.replicate 8 Group.powerOn
    sweep := none
    applyLevels := FinSet.empty 4
    channels := Tab.replicate 32 Channel.powerOn
    updateQueue := []
    link := .idle
    uldat := []
    ports := Tab.replicate 2 Port.powerOn
    pointer := .port 1
    engine := .free
    freeDraws := 0
    pending := [] }

end Sys2Proof.Machine
end

