-- ==== Sys2Proof/Machine/Ops.lean ====
section
/-! DEFINITION. The named operations over the tables that more than one command uses: records and handles, the key
index, rights, notices, attention conditions, handover, the lapse of a session, sweep work, the arbiter, take and
delivery. -/
namespace Sys2Proof.Machine

def allAgents : List Agent := List.finRange 8
def allSlots : List SlotNo := List.finRange 256
def allGroups : List GroupNo := List.finRange 8
def allChannels : List ChannelNo := List.finRange 32

/-! ### Reading and writing the tables -/

def State.record (s : State) (i : SlotNo) : Option Record := (s.slots.get i).record
/-- The handle a record in slot `i` has now (R8). -/
def State.handleOf (s : State) (i : SlotNo) : Handle := { slot := i, inc := (s.slots.get i).inc }
/-- Fill or free a slot; its incarnation belongs to the slot and stays (R7). -/
def State.setRecord (s : State) (i : SlotNo) (r : Option Record) : State :=
  { s with slots := s.slots.set i { inc := (s.slots.get i).inc, record := r } }
def State.row (s : State) (a : Agent) : AgentRow := s.agents.get a
def State.setRow (s : State) (a : Agent) (r : AgentRow) : State := { s with agents := s.agents.set a r }
def State.group (s : State) (g : GroupNo) : Group := s.groups.get g
def State.setGroup (s : State) (g : GroupNo) (r : Group) : State := { s with groups := s.groups.set g r }
def State.channel (s : State) (c : ChannelNo) : Channel := s.channels.get c
def State.setChannel (s : State) (c : ChannelNo) (r : Channel) : State := { s with channels := s.channels.set c r }
def State.port (s : State) (p : PortId) : Port := s.ports.get p
def State.setPort (s : State) (p : PortId) (q : Port) : State := { s with ports := s.ports.set p q }

/-- The trigger of a group as it stands (R100, R122). -/
def State.triggerOf (s : State) (g : GroupNo) : Trigger := (s.group g).trigger

/-- Whether a record is HELD by agent `a`. -/
def Record.heldBy (r : Record) (a : Agent) : Bool := r.state == .held a

/-- Whether the value lies within `lo` to `hi` inclusive, as signed numbers (R2). -/
def within (v lo hi : Value) : Bool := lo.sle v && v.sle hi

/-! ### Handles and the key index (R8, R10) -/

/-- Resolve a handle: the record it names, unless the slot is FREE or its incarnation differs (R8). -/
def State.resolve (s : State) (h : Handle) : Option Record :=
  if (s.slots.get h.slot).inc = h.inc then s.record h.slot else none

/-- The slot the index gives for a key (R11). -/
def findKey (k : Key) : List (Key × SlotNo) → Option SlotNo
  | [] => none
  | e :: es => if e.1 = k then some e.2 else findKey k es

/-- Insert an entry in its place in ascending order of key, keys as unsigned numbers (R10, R11). -/
def insertKey (k : Key) (i : SlotNo) : List (Key × SlotNo) → List (Key × SlotNo)
  | [] => [(k, i)]
  | e :: es => if k.toNat < e.1.toNat then (k, i) :: e :: es else e :: insertKey k i es

/-- Remove a key's entry (R11). -/
def eraseKey (k : Key) (l : List (Key × SlotNo)) : List (Key × SlotNo) := l.filter fun e => e.1 != k

/-! ### Rights (R30, R31) -/

/-- The bit number of a right (R178). -/
def Right.idx : Right → Fin 7
  | .read => 0
  | .watch => 1
  | .claim => 2
  | .stage => 3
  | .tune => 4
  | .create => 5
  | .retire => 6

/-- An agent's rights set in a class; agent 0 holds every right in every class (R31). -/
def State.rightsOf (s : State) (a : Agent) (c : ClassNo) : RightSet :=
  if h : a.val = 0 then FinSet.full 7 else (s.rights.get ⟨a.val - 1, by omega⟩).get c

def State.holds (s : State) (a : Agent) (c : ClassNo) (r : Right) : Bool := (s.rightsOf a c).mem r.idx

/-- Replace the set of agent 1 to 7 in a class; agent 0's row is fixed (R31, R33). -/
def State.setRightsOf (s : State) (a : Agent) (c : ClassNo) (rs : RightSet) : State :=
  if h : a.val = 0 then s
  else { s with rights := s.rights.set ⟨a.val - 1, by omega⟩ ((s.rights.get ⟨a.val - 1, by omega⟩).set c rs) }

/-! ### Value notices (R141, R147) -/

/-- Enter a notice in the update queue: it replaces the channel's waiting entry in place, or joins at the tail
(R147). -/
def enqueue (u : Update) : List Update → List Update
  | [] => [u]
  | v :: vs => if v.channel = u.channel then u :: vs else v :: enqueue u vs

/-- A value notice: the channel's driven value becomes the notice's value, and the notice enters the queue (R141). -/
def State.notice (s : State) (c : ChannelNo) (k : UpdKind) (v : Value) : State :=
  { s with
    channels := s.channels.set c { (s.channels.get c) with driven := v }
    updateQueue := enqueue { channel := c, kind := k, value := v } s.updateQueue }

/-- The notice of kind VALUE that a change of a record's live value makes: for a bound record whose live value
changed (R141). -/
def State.noticeChange (s : State) (binding : Option ChannelNo) (old new : Value) : State :=
  match binding with
  | none => s
  | some c => if old = new then s else s.notice c .value new

/-- Remove a channel's binding and queue its park value (R20, R67, R144). -/
def State.parkChannel (s : State) (c : ChannelNo) : State :=
  State.notice (s.setChannel c { (s.channel c) with binding := none }) c .parked (s.channel c).park

/-! ### Attention conditions (R128 to R132) -/

/-- The bit number of a reason (R180). -/
def Reason.idx : Reason → Fin 6
  | .granted => 0
  | .grantedAfterLapse => 1
  | .revoked => 2
  | .lapsed => 3
  | .changed => 4
  | .retired => 5

/-- The reason joins the entry, and the entry's key is that of the record of the latest condition (R131, R132). -/
def Entry.join (e : Entry) (r : Reason) (k : Key) : Entry :=
  { e with key := k, reasons := e.reasons.insert r.idx }

/-- Enter a condition in an agent's list, as the table of R131 gives. -/
def AgentRow.condition (row : AgentRow) (r : Reason) (h : Handle) (k : Key) : AgentRow :=
  if row.state ≠ .attached then row
  else if row.attention.any (fun e => e.handle == h) then
    { row with attention := row.attention.map fun e => if e.handle = h then e.join r k else e }
  else if row.attention.length < Config.attentionCap then
    { row with
      attention := row.attention ++ [{ handle := h, key := k, reasons := (FinSet.empty 6).insert r.idx }] }
  else { row with overflow := true }

/-- A condition for one agent (R131). -/
def State.condition (s : State) (a : Agent) (r : Reason) (h : Handle) (k : Key) : State :=
  s.setRow a ((s.row a).condition r h k)

/-- A condition of one reason for each agent of a set; they go to different lists, so their order has no effect
(R129). -/
def State.conditionAll (s : State) (who : AgentSet) (r : Reason) (h : Handle) (k : Key) : State :=
  { s with agents := s.agents.mapFin fun a row => if who.mem a then row.condition r h k else row }

/-! ### Claim queues and handover (R69 to R73, R80, R87) -/

/-- The claim entries in use: the total length of all claim queues (R70). -/
def State.claimsInUse (s : State) : Nat :=
  (allSlots.map fun i => match s.record i with | some r => r.queue.length | none => 0).sum

/-- The pool's free count: 64 less the entries in use (R70). -/
def State.poolFree (s : State) : Nat := Config.poolSize - s.claimsInUse

/-- The record once its owner gives it up: the staged value is discarded, and it passes to the head waiter or
becomes OPEN; the revision advances once (R72, R80). -/
def Record.passOn (r : Record) : Record :=
  match r.queue with
  | [] => { r with state := .opened, staged := none, revision := r.revision + 1 }
  | w :: ws => { r with state := .held w, staged := none, queue := ws, revision := r.revision + 1 }

/-- Hand on the record `r` of slot `i` by RELEASE, REVOKE or DETACH of `requester`: the new owner receives GRANTED
unless it is the requester (R72, R73). -/
def State.handOver (s : State) (i : SlotNo) (r : Record) (requester : Agent) : State :=
  match r.queue with
  | [] => s.setRecord i (some r.passOn)
  | w :: _ =>
    if w = requester then s.setRecord i (some r.passOn)
    else (s.setRecord i (some r.passOn)).condition w .granted (s.handleOf i) r.key

/-- The slots of the records HELD by `a`, ascending. -/
def State.heldSlots (s : State) (a : Agent) : List SlotNo :=
  allSlots.filter fun i => match s.record i with | some r => r.heldBy a | none => false

/-- Take `a` out of the record's claim queue and watcher set; the other waiters keep their order (R59, R61). -/
def Record.dropAgent (r : Record) (a : Agent) : Record :=
  { r with queue := r.queue.filter (· != a), watchers := r.watchers.erase a }

def State.dropAgent (s : State) (a : Agent) : State :=
  { s with slots := s.slots.map fun sl => { sl with record := sl.record.map (Record.dropAgent · a) } }

/-- How many claim queues, and how many watcher sets, an agent is in. -/
def State.claimsOf (s : State) (a : Agent) : Nat :=
  (allSlots.filter fun i => match s.record i with | some r => r.queue.contains a | none => false).length
def State.watchesOf (s : State) (a : Agent) : Nat :=
  (allSlots.filter fun i => match s.record i with | some r => r.watchers.mem a | none => false).length

/-! ### The lapse of a session (R61 to R63, R122) -/

/-- The lapse policy at the record's lapse step (R122). -/
def Record.lapsePolicy (r : Record) (t : Trigger) : Record :=
  match r.policy with
  | .hold => r
  | .safeNow => { r with live := r.safe }
  | .safeAtApply => if t = .onStage then { r with live := r.safe } else { r with safePending := true }

/-- The record once its lapse step is done (R62): the staged value discarded, the policy applied, LAPSED or granted
to the head waiter, the revision advanced once. -/
def Record.afterLapse (r : Record) (t : Trigger) : Record :=
  match r.queue with
  | [] => { (r.lapsePolicy t) with staged := none, state := .lapsed, revision := r.revision + 1 }
  | w :: ws => { (r.lapsePolicy t) with staged := none, state := .held w, queue := ws, revision := r.revision + 1 }

/-- One record's lapse step (R62). -/
def State.lapseStep (s : State) (i : SlotNo) : State :=
  match s.record i with
  | none => s
  | some r =>
    let r' := r.afterLapse (s.triggerOf r.group)
    let s' := ((s.setRecord i (some r')).noticeChange r.binding r.live r'.live).conditionAll r.watchers .lapsed
      (s.handleOf i) r.key
    match r.queue with
    | [] => s'
    | w :: _ => s'.condition w .grantedAfterLapse (s.handleOf i) r.key

/-- The session becomes LOST: list and flags emptied, countdown stopped, expired flag cleared; epoch, port and period
kept (R61, R64). -/
def AgentRow.lose (row : AgentRow) : AgentRow :=
  { row with state := .lost, overflow := false, countdown := none, expired := false, attention := [] }

/-- The session becomes DETACHED: the epoch is kept (R59, R66). -/
def AgentRow.leave (row : AgentRow) : AgentRow :=
  { row with
    state := .detached, port := none, period := none, overflow := false, countdown := none, expired := false
    attention := [] }

/-- Agent 0's LINK_STALLED and lost-agent set are cleared with its session (R59, R61). -/
def State.clearSupervisor (s : State) (a : Agent) : State :=
  if a = 0 then { s with linkStalled := false, lostAgents := FinSet.empty 8 } else s

/-- The agent joins agent 0's lost-agent set when it is not 0 and agent 0 is ATTACHED (R63, R134). -/
def State.recordLoss (s : State) (a : Agent) : State :=
  if a ≠ 0 ∧ (s.row 0).state = .attached then { s with lostAgents := s.lostAgents.insert a } else s

/-- The first part of a lapse (R61): the session is LOST and the agent is out of every watcher set and queue. -/
def State.loseSession (s : State) (a : Agent) : State :=
  ((s.setRow a (s.row a).lose).dropAgent a).clearSupervisor a

/-- The lapse of agent `a`, whole (R61 to R63). -/
def State.lapseAgent (s : State) (a : Agent) : State :=
  (((s.loseSession a).heldSlots a).foldl State.lapseStep (s.loseSession a)).recordLoss a

/-! ### Timers (R39, R49, R50) -/

/-- What a report shows of an acknowledge timer or a period counter, which stands at 1 or more while it runs (R109,
R146): one that is due still has its last tick to take, with its expiry (log 5). -/
def ticksShown (n : Nat) : Nat := max n 1

/-- A countdown or counter loaded with a period; a period of 0 or none leaves it stopped (R50). -/
def loadCount : Option Nat → Option Nat
  | some 0 => none
  | p => p

def AgentRow.renew (row : AgentRow) : AgentRow := { row with countdown := loadCount row.period, expired := false }

/-! ### Sweep work (R102, R119) -/

/-- The record with its staged value applied, or its pending safe value, if it has either (R119); the revision is
the caller's to advance. -/
def Record.applyWork (r : Record) : Option Record :=
  match r.staged with
  | some v => some { r with live := v, staged := none, safePending := false }
  | none => if r.safePending then some { r with live := r.safe, safePending := false } else none

/-- The part of an application that reaches beyond the record: a changed live value gives a bound channel a notice
and the agents of `who` CHANGED (R93, R102, R119). -/
def State.liveChanged (s : State) (i : SlotNo) (r : Record) (new : Value) (who : AgentSet) : State :=
  if r.live = new then s
  else (s.noticeChange r.binding r.live new).conditionAll who .changed (s.handleOf i) r.key

/-- The lowest slot above the cursor whose record is a member of the group (R119). -/
def aboveCursor (c : Option SlotNo) (i : SlotNo) : Bool :=
  match c with
  | none => true
  | some j => decide (j < i)

def State.nextMember (s : State) (w : Sweep) : Option SlotNo :=
  allSlots.find? fun i =>
    aboveCursor w.cursor i && (match s.record i with | some r => r.group == w.group | none => false)

/-- An apply event for a group sets its pending flag (R110). -/
def Group.raise (g : Group) : Group := { g with pending := true }

/-- A group's period counter loaded: running from the full period when the trigger is PERIOD, stopped otherwise
(R109). -/
def Group.load (g : Group) : Group :=
  { g with counter := if g.trigger = .period then some g.period else none }

/-! ### The arbiter, the take and the delivery (R163 to R165) -/

def Port.isSubmitted (q : Port) : Bool :=
  match q.request with
  | .submitted _ => true
  | _ => false

/-- INTERNAL has work waiting (R163). -/
def State.internalWork (s : State) : Bool :=
  s.agents.cells.any (·.expired) || s.sweep.isSome || s.groups.cells.any (·.pending)

def State.hasWork (s : State) : Claimant → Bool
  | .internal => s.internalWork
  | .port p => (s.port p).isSubmitted

/-- The claimants in the cycle INTERNAL, P0, P1, INTERNAL, from the one after the pointer on (R163). -/
def Claimant.cycle : Claimant → List Claimant
  | .internal => [.port 0, .port 1, .internal]
  | .port p => if p = 0 then [.port 1, .internal, .port 0] else [.internal, .port 0, .port 1]

/-- The claimant the arbiter grants the engine to: from READY on, when the engine is free, the first after the
pointer that has work waiting (R163, R174). -/
def State.grant (s : State) : Option Claimant :=
  if s.phase = .ready ∧ s.engine = .free then s.pointer.cycle.find? s.hasWork else none

/-- The frame that a grant to port `p` takes, if the arbiter grants `p` (R164). -/
def State.grantedFrame (s : State) (p : PortId) : Option (List Byte) :=
  if s.grant = some (.port p) then
    match (s.port p).request with
    | .submitted f => some f
    | _ => none
  else none

/-- The take: the pointer names the port, and the port moves from SUBMITTED to TAKEN (R163, R164). -/
def State.takeFrom (s : State) (p : PortId) : State :=
  { s.setPort p { (s.port p) with request := .taken } with pointer := .port p }

/-- Delivery: a TAKEN port holds the response, an ORPHANED port discards it; the engine is free (R165). -/
def State.deliverTo (s : State) (p : PortId) (response : List Byte) : State :=
  { s.setPort p
      { (s.port p) with
        request := .empty
        orphan := false
        response := if (s.port p).orphan then (s.port p).response else some response } with
    engine := .free }

/-- The grant of the engine to internal work for one work item, whole (R117, R163). -/
def State.grantInternal (s : State) : State := { s with pointer := .internal }

end Sys2Proof.Machine
end

