-- ==== Sys2Proof/Machine/Frames.lean ====
section
/-! DEFINITION. CRC-8, outcome codes, the items of response bodies, and the response and update frames (R180 to R183).
An item that is never absent in its outcome takes no presence byte (log 10). -/
namespace Sys2Proof.Machine

/-! ### CRC-8 (R182) -/

/-- One shift left of the register: the bit shifted out of bit 7 exclusive-ORs the register with 0x07. -/
def crcShift (r : Byte) : Byte := if r.getLsbD 7 then (r <<< 1) ^^^ 0x07 else r <<< 1

/-- The register after one byte. -/
def crcStep (r b : Byte) : Byte :=
  crcShift (crcShift (crcShift (crcShift (crcShift (crcShift (crcShift (crcShift (r ^^^ b))))))))

/-- The CRC-8 of a list of bytes: the register starts at 0x00, with no final inversion. -/
def crc8 (bs : List Byte) : Byte := bs.foldl crcStep 0

/-! ### Outcomes (Table 11-2) -/

inductive ReqOutcome where
  | done | queued
  | unknownKind | notAttached | sessionLost | staleSession | wrongPort
  | noRight | badField | notFound | staleHandle | notOwner | revisionMismatch
  | exists_ | directoryFull | outOfRange | limitConflict | owned | alreadyOwner
  | alreadyQueued | queueFull | claimPoolEmpty | notQueued | notHeld | notLapsed | nothingStaged | notWatching
  | bound | channelBusy | wrongTrigger | notStalled
  deriving DecidableEq, Repr

def ReqOutcome.code : ReqOutcome → Byte
  | .done => 0x00 | .queued => 0x01
  | .unknownKind => 0x10 | .notAttached => 0x11 | .sessionLost => 0x12 | .staleSession => 0x13 | .wrongPort => 0x14
  | .noRight => 0x20 | .badField => 0x21 | .notFound => 0x22 | .staleHandle => 0x23 | .notOwner => 0x24
  | .revisionMismatch => 0x25
  | .exists_ => 0x30 | .directoryFull => 0x31 | .outOfRange => 0x32 | .limitConflict => 0x33 | .owned => 0x34
  | .alreadyOwner => 0x35 | .alreadyQueued => 0x36 | .queueFull => 0x37 | .claimPoolEmpty => 0x38
  | .notQueued => 0x39 | .notHeld => 0x3A | .notLapsed => 0x3B | .nothingStaged => 0x3C | .notWatching => 0x3D
  | .bound => 0x3E | .channelBusy => 0x3F | .wrongTrigger => 0x40 | .notStalled => 0x41

/-! ### Items of a body (R180) -/

def RecState.code : RecState → Byte
  | .opened => 1
  | .held _ => 2
  | .lapsed => 3

def SessState.code : SessState → Byte
  | .detached => 0
  | .attached => 1
  | .lost => 2

def Policy.code : Policy → Byte
  | .hold => 0
  | .safeNow => 1
  | .safeAtApply => 2

def Trigger.code : Trigger → Byte
  | .onStage => 0
  | .strobe => 1
  | .period => 2
  | .command => 3

def UpdKind.code : UpdKind → Byte
  | .value => 0
  | .parked => 1

def Link.code : Link → Byte
  | .idle => 0
  | .sending _ _ => 1
  | .awaitAck _ _ _ => 2
  | .stalled _ => 3

/-- A flag, or a yes or no item: one byte. -/
def flag (b : Bool) : List Byte := [if b then 1 else 0]

/-- An item that may be absent: a presence byte, then the item when present. -/
def optional {α : Type} (enc : α → List Byte) : Option α → List Byte
  | none => [0]
  | some a => 1 :: enc a

/-- One byte for a number of a small sort: agent, class, group, channel, strobe input, port, slot. -/
def small {n : Nat} (i : Fin n) : List Byte := [byteOf i.val]

def encHandle (h : Handle) : List Byte := [byteOf h.slot.val, h.inc]

/-- The owner a state carries. -/
def RecState.owner : RecState → Option Agent
  | .held a => some a
  | _ => none

/-- The full record report of READ and LOOKUP (R24). -/
def fullReport (h : Handle) (r : Record) : List Byte :=
  encHandle h ++ bytes16 r.key ++ small r.cls ++ small r.group ++ [r.state.code] ++ optional small r.state.owner
    ++ bytes16 r.min ++ bytes16 r.max ++ bytes16 r.live ++ optional bytes16 r.staged ++ bytes16 r.safe
    ++ [r.policy.code] ++ flag r.safePending ++ bytes16 r.revision ++ optional small r.binding
    ++ byteOf r.queue.length :: (r.queue.flatMap small ++ [r.watchers.toByte])

/-- The brief form of ENUMERATE (R26). -/
def briefReport (h : Handle) (r : Record) : List Byte :=
  bytes16 r.key ++ encHandle h ++ [r.state.code] ++ optional small r.state.owner ++ bytes16 r.revision
    ++ bytes16 r.live

/-- An attention entry: five bytes. -/
def encEntry (e : Entry) : List Byte := encHandle e.handle ++ bytes16 e.key ++ [e.reasons.toByte]

/-! ### Frames -/

/-- A response frame: length, tag, outcome, body, CRC-8 (R180, R181). -/
def responseFrame (tag : Byte) (o : ReqOutcome) (body : List Byte) : List Byte :=
  let front := byteOf (body.length + 4) :: tag :: o.code :: body
  front ++ [crc8 front]

/-- The byte of kind and channel of an update frame (R183). -/
def kindAndChannel (u : Update) : Byte := (if u.kind = .parked then 0x80 else 0x00) ||| byteOf u.channel.val

/-- An update frame: start marker, kind and channel, value, CRC-8 over the middle three bytes (R183). -/
def updateFrame (u : Update) : List Byte :=
  let middle := kindAndChannel u :: bytes16 u.value
  0xC3 :: middle ++ [crc8 middle]

end Sys2Proof.Machine
end

