-- ==== Sys2Proof/Machine/Operands.lean ====
section
/-! DEFINITION. Request kinds and the reading of request frames: every operand form of Table 11-1, with the field
check (check 4) of each kind (R40, R178, R179). A parser answers none exactly for BAD_FIELD. -/
namespace Sys2Proof.Machine

/-- The request kinds of Table 2-1. -/
inductive ReqKind where
  | attach | detach | keepalive | queryAgent | restart | setRights
  | create | retire | lookup | read | enumerate
  | claim | release | cancelClaim | revoke | restore
  | stage | unstage | tune
  | apply | setGroup | queryGroup
  | watch | unwatch | fetchAttention
  | bind | unbind | setPark | queryChannel | linkResume
  deriving DecidableEq, Repr

/-- The kind codes of Table 11-1 (R178). -/
def ReqKind.code : ReqKind → Byte
  | .attach => 0x01 | .detach => 0x02 | .keepalive => 0x03 | .queryAgent => 0x04 | .restart => 0x05
  | .setRights => 0x06
  | .create => 0x10 | .retire => 0x11 | .lookup => 0x12 | .read => 0x13 | .enumerate => 0x14
  | .claim => 0x20 | .release => 0x21 | .cancelClaim => 0x22 | .revoke => 0x23 | .restore => 0x24
  | .stage => 0x30 | .unstage => 0x31 | .tune => 0x32
  | .apply => 0x40 | .setGroup => 0x41 | .queryGroup => 0x42
  | .watch => 0x50 | .unwatch => 0x51 | .fetchAttention => 0x52
  | .bind => 0x60 | .unbind => 0x61 | .setPark => 0x62 | .queryChannel => 0x63 | .linkResume => 0x64

def allKinds : List ReqKind :=
  [.attach, .detach, .keepalive, .queryAgent, .restart, .setRights, .create, .retire, .lookup, .read, .enumerate,
   .claim, .release, .cancelClaim, .revoke, .restore, .stage, .unstage, .tune, .apply, .setGroup, .queryGroup,
   .watch, .unwatch, .fetchAttention, .bind, .unbind, .setPark, .queryChannel, .linkResume]

/-- Whether a kind code is in Table 11-1 (R37, R178). -/
def codeAssigned (b : Byte) : Bool := allKinds.any fun k => k.code == b

/-- The twelve supervisor-only kinds (R35). -/
def ReqKind.supervisorOnly : ReqKind → Bool
  | .setRights | .setGroup | .bind | .unbind | .setPark | .revoke | .restore | .linkResume | .restart
  | .queryAgent | .queryGroup | .queryChannel => true
  | .attach | .detach | .keepalive | .create | .retire | .lookup | .read | .enumerate | .claim | .release
  | .cancelClaim | .stage | .unstage | .tune | .apply | .watch | .unwatch | .fetchAttention => false

/-- The bits of the options byte (R178). -/
def optGuard : Byte := 0x80
def optWait : Byte := 0x02
def optOpen : Byte := 0x01

/-! ### The header (R178) -/

def frameAgent (f : List Byte) : Byte := f.getD 1 0
def frameEpoch (f : List Byte) : Byte := f.getD 2 0
def frameTag (f : List Byte) : Byte := f.getD 3 0
def frameKind (f : List Byte) : Byte := f.getD 4 0
def frameOptions (f : List Byte) : Byte := f.getD 5 0
/-- The bytes between the options byte and the CRC byte. -/
def frameBody (f : List Byte) : List Byte := (f.drop 6).dropLast

/-! ### Options, byte count and guard (R179) -/

/-- Whether the options byte sets only bits of `accepted`. -/
def optionsWithin (accepted o : Byte) : Bool := o &&& ~~~accepted == 0

/-- The field bytes and the guard, when the options are accepted and the number of body bytes is the `n` of the
fields, and two more with GUARD. -/
def splitBody (accepted : Byte) (n : Nat) (o : Byte) (body : List Byte) : Option (List Byte × Option (BitVec 16)) :=
  if !optionsWithin accepted o then none
  else if o &&& optGuard ≠ 0 then
    if body.length = n + 2 then some (body.take n, some (word16 (body.getD n 0) (body.getD (n + 1) 0))) else none
  else if body.length = n then some (body, none) else none

/-! ### Field sorts -/

def policyOf : Byte → Option Policy := fun b =>
  if b = 0 then some .hold else if b = 1 then some .safeNow else if b = 2 then some .safeAtApply else none

def triggerOf : Byte → Option Trigger := fun b =>
  if b = 0 then some .onStage else if b = 1 then some .strobe else if b = 2 then some .period
  else if b = 3 then some .command else none

/-- Slot, then incarnation; neither can lie out of range (R178, R179). -/
def handleOfBytes (slot inc : Byte) : Handle := { slot := ⟨slot.toNat, slot.isLt⟩, inc := inc }

/-- A keepalive period an agent may give: 10 to 60000, or 0 from agent 0 (R54). -/
def keepaliveAllowed (a : Agent) (n : Nat) : Bool :=
  (decide (Config.minKeepalive ≤ n) && decide (n ≤ Config.maxKeepalive)) || (n == 0 && a == 0)

/-! ### The kinds' fields (Table 11-1) -/

/-- Kinds with no field and no option: DETACH, KEEPALIVE, RESTART, FETCH_ATTENTION, LINK_RESUME. -/
def parseNone (o : Byte) (body : List Byte) : Option Unit :=
  match splitBody 0 0 o body with
  | some _ => some ()
  | none => none

/-- ATTACH: the keepalive period (R54). -/
def parseAttach (a : Agent) (o : Byte) (body : List Byte) : Option Nat :=
  match splitBody 0 2 o body with
  | some ([hi, lo], _) => if keepaliveAllowed a (word16 hi lo).toNat then some (word16 hi lo).toNat else none
  | _ => none

/-- QUERY_AGENT: an agent (R65). -/
def parseAgent (o : Byte) (body : List Byte) : Option Agent :=
  match splitBody 0 1 o body with
  | some ([b], _) => finOf 8 b
  | _ => none

/-- SET_RIGHTS: agent 1 to 7, class, rights set (R33). -/
def parseSetRights (o : Byte) (body : List Byte) : Option (Agent × ClassNo × RightSet) :=
  match splitBody 0 3 o body with
  | some ([a, c, r], _) =>
    match finOf 8 a, finOf 8 c with
    | some a, some c => if a = 0 ∨ r.getLsbD 7 then none else some (a, c, FinSet.ofByte 7 r)
    | _, _ => none
  | _ => none

structure CreateFields where
  key : Key
  cls : ClassNo
  group : GroupNo
  min : Value
  max : Value
  live : Value
  safe : Value
  policy : Policy
  unowned : Bool
  deriving DecidableEq, Repr

/-- CREATE (R14): key not 0, class, group and policy in range, min not greater than max, no guard. `unowned` is the
option OPEN. -/
def parseCreate (o : Byte) (body : List Byte) : Option CreateFields :=
  match splitBody optOpen 13 o body with
  | some ([k1, k0, c, g, m1, m0, x1, x0, l1, l0, s1, s0, pol], _) =>
    match finOf 8 c, finOf 8 g, policyOf pol with
    | some c, some g, some pol =>
      if word16 k1 k0 = 0 ∨ (word16 x1 x0).slt (word16 m1 m0) then none
      else some { key := word16 k1 k0, cls := c, group := g, min := word16 m1 m0, max := word16 x1 x0,
                  live := word16 l1 l0, safe := word16 s1 s0, policy := pol, unowned := o &&& optOpen ≠ 0 }
    | _, _, _ => none
  | _ => none

/-- Kinds with a handle alone; `accepted` is the options the kind accepts. -/
def parseHandle (accepted o : Byte) (body : List Byte) : Option (Handle × Option (BitVec 16)) :=
  match splitBody accepted 2 o body with
  | some ([sl, inc], g) => some (handleOfBytes sl inc, g)
  | _ => none

/-- LOOKUP: a key, not 0 (R22). -/
def parseKey (o : Byte) (body : List Byte) : Option Key :=
  match splitBody 0 2 o body with
  | some ([hi, lo], _) => if word16 hi lo = 0 then none else some (word16 hi lo)
  | _ => none

/-- ENUMERATE: after-key; every value is valid (R25). -/
def parseAfterKey (o : Byte) (body : List Byte) : Option Key :=
  match splitBody 0 2 o body with
  | some ([hi, lo], _) => some (word16 hi lo)
  | _ => none

/-- STAGE: handle, value (R90). -/
def parseStage (o : Byte) (body : List Byte) : Option (Handle × Value × Option (BitVec 16)) :=
  match splitBody optGuard 4 o body with
  | some ([sl, inc, hi, lo], g) => some (handleOfBytes sl inc, word16 hi lo, g)
  | _ => none

structure TuneFields where
  handle : Handle
  limits : Option (Value × Value)
  safe : Option Value
  policy : Option Policy
  group : Option GroupNo
  guard : Option (BitVec 16)
  deriving DecidableEq, Repr

/-- The bytes that the parts of a TUNE presence mask take (R178). -/
def tuneBytes (mask : Byte) : Nat :=
  (if mask.getLsbD 0 then 2 else 0) + (if mask.getLsbD 1 then 2 else 0) + (if mask.getLsbD 2 then 2 else 0)
    + (if mask.getLsbD 3 then 1 else 0) + (if mask.getLsbD 4 then 1 else 0)

/-- The word at an offset of the field bytes. -/
def wordAt (bs : List Byte) (n : Nat) : BitVec 16 := word16 (bs.getD n 0) (bs.getD (n + 1) 0)

/-- TUNE (R97): the mask names at least one part, MIN and MAX together, no undefined bit; the policy and the group
are in range. -/
def parseTune (o : Byte) (body : List Byte) : Option TuneFields :=
  let mask := body.getD 2 0
  if mask = 0 ∨ mask.getLsbD 0 ≠ mask.getLsbD 1 ∨ mask &&& 0xE0 ≠ 0 then none
  else
    match splitBody optGuard (3 + tuneBytes mask) o body with
    | none => none
    | some (bs, g) =>
      let atSafe := if mask.getLsbD 0 then 7 else 3
      let atPolicy := atSafe + (if mask.getLsbD 2 then 2 else 0)
      let atGroup := atPolicy + (if mask.getLsbD 3 then 1 else 0)
      let pol := policyOf (bs.getD atPolicy 0)
      let grp := finOf 8 (bs.getD atGroup 0)
      if (mask.getLsbD 3 ∧ pol = none) ∨ (mask.getLsbD 4 ∧ grp = none) then none
      else some
        { handle := handleOfBytes (bs.getD 0 0) (bs.getD 1 0)
          limits := if mask.getLsbD 0 then some (wordAt bs 3, wordAt bs 5) else none
          safe := if mask.getLsbD 2 then some (wordAt bs atSafe) else none
          policy := if mask.getLsbD 3 then pol else none
          group := if mask.getLsbD 4 then grp else none
          guard := g }

/-- APPLY: a group set, not empty (R111). Eight bits name groups 0 to 7, so no group lies out of range. -/
def parseGroupSet (o : Byte) (body : List Byte) : Option GroupSet :=
  match splitBody 0 1 o body with
  | some ([b], _) => if b = 0 then none else some (FinSet.ofByte 8 b)
  | _ => none

structure GroupFields where
  group : GroupNo
  trigger : Trigger
  strobe : StrobeNo
  period : Nat
  applyAgents : AgentSet
  deriving DecidableEq, Repr

/-- SET_GROUP (R113): every field in range, whatever the trigger. -/
def parseSetGroup (o : Byte) (body : List Byte) : Option GroupFields :=
  match splitBody 0 6 o body with
  | some ([g, t, n, p1, p0, ags], _) =>
    match finOf 8 g, triggerOf t, finOf 4 n with
    | some g, some t, some n =>
      let p := (word16 p1 p0).toNat
      if p = 0 ∨ Config.maxApplyPeriod < p then none
      else some { group := g, trigger := t, strobe := n, period := p, applyAgents := FinSet.ofByte 8 ags }
    | _, _, _ => none
  | _ => none

/-- QUERY_GROUP: a group (R116). -/
def parseGroup (o : Byte) (body : List Byte) : Option GroupNo :=
  match splitBody 0 1 o body with
  | some ([b], _) => finOf 8 b
  | _ => none

/-- BIND: channel, handle (R142). -/
def parseBind (o : Byte) (body : List Byte) : Option (ChannelNo × Handle) :=
  match splitBody 0 3 o body with
  | some ([c, sl, inc], _) =>
    match finOf 32 c with
    | some c => some (c, handleOfBytes sl inc)
    | none => none
  | _ => none

/-- UNBIND and QUERY_CHANNEL: a channel (R144, R146). -/
def parseChannel (o : Byte) (body : List Byte) : Option ChannelNo :=
  match splitBody 0 1 o body with
  | some ([c], _) => finOf 32 c
  | _ => none

/-- SET_PARK: channel, value (R145). -/
def parseSetPark (o : Byte) (body : List Byte) : Option (ChannelNo × Value) :=
  match splitBody 0 3 o body with
  | some ([c, hi, lo], _) =>
    match finOf 32 c with
    | some c => some (c, word16 hi lo)
    | none => none
  | _ => none

end Sys2Proof.Machine
end

