-- ==== Sys2Proof/Machine/Admission.lean ====
section
/-! DEFINITION. The admission sequence (R36 to R45) and the service of one request: take, checks 1 to 3, renewal,
the kind's own checks and execution, response, delivery. -/
namespace Sys2Proof.Machine

/-- What the engine makes of a request: the state, the outcome and the body of the response. -/
structure Answer where
  st : State
  outcome : ReqOutcome
  body : List Byte
  deriving DecidableEq, Repr

/-- A request past checks 1 to 3: its agent, the port that carried it, its options and body bytes, and the ticks the
agent's countdown held just before the renewal (R58). -/
structure Request where
  agent : Agent
  port : PortId
  options : Byte
  body : List Byte
  ticksBefore : Nat
  deriving DecidableEq, Repr

/-- A refusal without a body (R36). -/
def refuse (s : State) (o : ReqOutcome) : Answer := { st := s, outcome := o, body := [] }

/-! ### Check 2 and the renewal (R38, R39) -/

/-- The session tests of check 2, in their order (R38). -/
def sessionRefusal (row : AgentRow) (epoch : Byte) (p : PortId) : Option ReqOutcome :=
  match row.state with
  | .detached => some .notAttached
  | .lost => some .sessionLost
  | .attached =>
    if epoch ≠ row.epoch then some .staleSession
    else if row.port ≠ some p then some .wrongPort
    else none

def State.renew (s : State) (a : Agent) : State := s.setRow a (s.row a).renew

/-- The request of a frame, once its agent is known. -/
def requestOf (f : List Byte) (a : Agent) (p : PortId) (ticks : Nat) : Request :=
  { agent := a, port := p, options := frameOptions f, body := frameBody f, ticksBefore := ticks }

/-- Checks 2 and 3 with the renewal between them, then the kind's own checks and execution `carry` (R36 to R39).
ATTACH's check 2 ends at the agent field, without renewal (R38). -/
def admission (k : ReqKind) (carry : Request → State → Answer) (p : PortId) (f : List Byte) (s : State) : Answer :=
  match finOf 8 (frameAgent f) with
  | none => refuse s .badField
  | some a =>
    if k = .attach then carry (requestOf f a p 0) s
    else
      match sessionRefusal (s.row a) (frameEpoch f) p with
      | some o => refuse s o
      | none =>
        if k.supervisorOnly && a != 0 then refuse (s.renew a) .noRight
        else carry (requestOf f a p ((s.row a).countdown.getD 0)) (s.renew a)

/-! ### Checks 5 to 8 -/

/-- Check 5 for a kind that names a record by handle (R8, R41). -/
def onHandle (s : State) (h : Handle) (k : Record → Answer) : Answer :=
  match s.resolve h with
  | none => refuse s .staleHandle
  | some r => k r

/-- Check 6 for a kind that needs a class right (R42). -/
def needRight (s : State) (a : Agent) (c : ClassNo) (r : Right) (k : Answer) : Answer :=
  if s.holds a c r then k else refuse s .noRight

/-- Check 7 (R43). -/
def needOwner (s : State) (qualifies : Bool) (k : Answer) : Answer :=
  if qualifies then k else refuse s .notOwner

/-- Check 8: a guard that differs is refused with the handle and the current revision (R44). -/
def needGuard (s : State) (h : Handle) (r : Record) (guard : Option (BitVec 16)) (k : Answer) : Answer :=
  match guard with
  | none => k
  | some g =>
    if g = r.revision then k
    else { st := s, outcome := .revisionMismatch, body := encHandle h ++ bytes16 r.revision }

/-- Who passes check 7 of STAGE and UNSTAGE: the owner, and agent 0 on an OPEN or LAPSED record (R43, R91). -/
def Record.stageableBy (r : Record) (a : Agent) : Bool :=
  match r.state with
  | .held o => o == a
  | .opened => a == 0
  | .lapsed => a == 0

/-! ### Service of a request (R36, R164, R165) -/

/-- The taken request's effects done and its response in the engine's hands, not delivered (log 3). -/
def takeRequest (act : List Byte → State → Answer) (p : PortId) (f : List Byte) (s : State) : State :=
  { (act f (s.takeFrom p)).st with
    engine := .busy p (frameKind f)
      (responseFrame (frameTag f) (act f (s.takeFrom p)).outcome (act f (s.takeFrom p)).body) }

/-- Delivery of the response of a request of a kind that `isKind` names, if the engine holds it for port `p`. -/
def finishRequest (isKind : Byte → Bool) (p : PortId) (s : State) : State :=
  match s.engine with
  | .free => s
  | .busy q c resp => if q = p ∧ isKind c = true then s.deliverTo p resp else s

/-- The whole step: take, checks, execution and delivery. -/
def wholeRequest (act : List Byte → State → Answer) (p : PortId) (f : List Byte) (s : State) : State :=
  (act f (s.takeFrom p)).st.deliverTo p
    (responseFrame (frameTag f) (act f (s.takeFrom p)).outcome (act f (s.takeFrom p)).body)

/-- The part of a request that the command names, when the arbiter grants port `p` and the port's frame is of a kind
that `isKind` names; otherwise there is no such request to serve and nothing changes (log 2). -/
def serveFrame (isKind : Byte → Bool) (act : List Byte → State → Answer) (p : PortId) (x : Extent) (s : State) :
    State :=
  match x with
  | .finish => finishRequest isKind p s
  | .take =>
    match s.grantedFrame p with
    | none => s
    | some f => if isKind (frameKind f) then takeRequest act p f s else s
  | .whole =>
    match s.grantedFrame p with
    | none => s
    | some f => if isKind (frameKind f) then wholeRequest act p f s else s

/-- Service of a request of an assigned kind. -/
def serve (k : ReqKind) (carry : Request → State → Answer) (p : PortId) (x : Extent) (s : State) : State :=
  serveFrame (fun b => b == k.code) (admission k carry p) p x s

/-- UNKNOWN_KIND (R37): check 1 fails, before the session checks, without renewal. -/
def execUnknownKind (p : PortId) (x : Extent) (s : State) : Host.Outcome State Fault Refusal :=
  .next (serveFrame (fun b => !codeAssigned b) (fun _ t => refuse t .unknownKind) p x s)

end Sys2Proof.Machine
end

