-- ==== Sys2Proof/Machine/Directory.lean ====
section
/-! DEFINITION. Chapter 1: CREATE, RETIRE, LOOKUP, READ and ENUMERATE. -/
namespace Sys2Proof.Machine

/-- The record that CREATE fills (R16). -/
def newRecord (a : Agent) (f : CreateFields) : Record :=
  { key := f.key, cls := f.cls, group := f.group, state := if f.unowned then .opened else .held a
    min := f.min, max := f.max, live := f.live, staged := none, safe := f.safe, policy := f.policy
    safePending := false, revision := 1, binding := none, queue := [], watchers := FinSet.empty 8 }

/-- Place a new record in slot `i`, the head of the free-slot list, with the slot's incarnation advanced (R16). -/
def State.placeRecord (s : State) (i : SlotNo) (rest : List SlotNo) (r : Record) : State :=
  { s with
    slots := s.slots.set i { inc := (s.slots.get i).inc + 1, record := some r }
    freeList := rest
    keyIndex := insertKey r.key i s.keyIndex }

/-- CREATE (R14 to R16): the key, then space, then the values are tested. -/
def carryCreate (q : Request) (s : State) : Answer :=
  match parseCreate q.options q.body with
  | none => refuse s .badField
  | some f =>
    needRight s q.agent f.cls .create
      (if (findKey f.key s.keyIndex).isSome then refuse s .exists_
       else
         match s.freeList with
         | [] => refuse s .directoryFull
         | i :: rest =>
           if !(within f.live f.min f.max && within f.safe f.min f.max) then refuse s .outOfRange
           else
             { st := s.placeRecord i rest (newRecord q.agent f)
               outcome := .done
               body := encHandle { slot := i, inc := (s.slots.get i).inc + 1 } })

def execCreate (p : PortId) (x : Extent) (s : State) : Host.Outcome State Fault Refusal :=
  .next (serve .create carryCreate p x s)

/-- The agents told RETIRED: claimants, watchers and the owner, but not the requester (R19). -/
def Record.retireTold (r : Record) (requester : Agent) : AgentSet :=
  Tab.ofFn fun b => (r.queue.contains b || r.watchers.mem b || r.heldBy b) && b != requester

/-- Remove the binding of a retired record: the channel's driven value becomes its park value (R20). -/
def State.parkBound (s : State) (binding : Option ChannelNo) : State :=
  match binding with
  | none => s
  | some c => s.parkChannel c

/-- The dismantling of a retired record (R20): binding, record and key entry gone, the slot at the tail of the
free-slot list. -/
def State.dismantle (s : State) (i : SlotNo) (r : Record) : State :=
  { (s.parkBound r.binding).setRecord i none with
    keyIndex := eraseKey r.key s.keyIndex
    freeList := s.freeList ++ [i] }

/-- RETIRE (R17 to R21). -/
def carryRetire (q : Request) (s : State) : Answer :=
  match parseHandle optGuard q.options q.body with
  | none => refuse s .badField
  | some (h, guard) =>
    onHandle s h fun r =>
      needRight s q.agent r.cls .retire
        (needOwner s (q.agent == 0 || r.heldBy q.agent)
          (needGuard s h r guard
            (if q.agent ≠ 0 ∧ r.binding.isSome then refuse s .bound
             else
               { st := (s.conditionAll (r.retireTold q.agent) .retired h r.key).dismantle h.slot r
                 outcome := .done
                 body := encHandle h ++ bytes16 r.revision ++ optional small r.binding })))

def execRetire (p : PortId) (x : Extent) (s : State) : Host.Outcome State Fault Refusal :=
  .next (serve .retire carryRetire p x s)

/-- LOOKUP (R22). -/
def carryLookup (q : Request) (s : State) : Answer :=
  match parseKey q.options q.body with
  | none => refuse s .badField
  | some k =>
    match findKey k s.keyIndex with
    | none => refuse s .notFound
    | some i =>
      match s.record i with
      | none => refuse s .notFound
      | some r =>
        needRight s q.agent r.cls .read { st := s, outcome := .done, body := fullReport (s.handleOf i) r }

def execLookup (p : PortId) (x : Extent) (s : State) : Host.Outcome State Fault Refusal :=
  .next (serve .lookup carryLookup p x s)

/-- READ (R23). -/
def carryRead (q : Request) (s : State) : Answer :=
  match parseHandle 0 q.options q.body with
  | none => refuse s .badField
  | some (h, _) =>
    onHandle s h fun r => needRight s q.agent r.cls .read { st := s, outcome := .done, body := fullReport h r }

def execRead (p : PortId) (x : Extent) (s : State) : Host.Outcome State Fault Refusal :=
  .next (serve .read carryRead p x s)

/-- The records with keys above `after` that agent `a` may read, in ascending key order (R25). -/
def State.readableAfter (s : State) (a : Agent) (after : Key) : List (Handle × Record) :=
  s.keyIndex.filterMap fun e =>
    if after.toNat < e.1.toNat then
      match s.record e.2 with
      | some r => if s.holds a r.cls .read then some (s.handleOf e.2, r) else none
      | none => none
    else none

/-- ENUMERATE (R25, R26): up to six records in brief form, then MORE. -/
def carryEnumerate (q : Request) (s : State) : Answer :=
  match parseAfterKey q.options q.body with
  | none => refuse s .badField
  | some after =>
    let found := s.readableAfter q.agent after
    let given := found.take Config.enumMax
    { st := s
      outcome := .done
      body := byteOf given.length :: (given.flatMap fun e => briefReport e.1 e.2)
        ++ flag (decide (Config.enumMax < found.length)) }

def execEnumerate (p : PortId) (x : Extent) (s : State) : Host.Outcome State Fault Refusal :=
  .next (serve .enumerate carryEnumerate p x s)

end Sys2Proof.Machine
end

