-- ==== Sys2Proof/Machine/Groups.lean ====
section
/-! DEFINITION. Chapter 6: APPLY, SET_GROUP, QUERY_GROUP, sweep starts and sweep steps, strobe edges. -/
namespace Sys2Proof.Machine

/-- The lowest named group whose trigger is not COMMAND (R111). -/
def State.wrongTrigger (s : State) (gs : GroupSet) : Option GroupNo :=
  allGroups.find? fun g => gs.mem g && s.triggerOf g != .command

/-- Check 6 of APPLY: agent 0, or a member of the apply-agent set of every named group (R42, R111). -/
def State.mayApply (s : State) (a : Agent) (gs : GroupSet) : Bool :=
  a == 0 || allGroups.all fun g => !gs.mem g || (s.group g).applyAgents.mem a

/-- An apply event for each group of a set (R110, R112). -/
def State.raiseAll (s : State) (gs : GroupSet) : State :=
  { s with groups := s.groups.mapFin fun g r => if gs.mem g then r.raise else r }

/-- The named groups whose pending flag is already set (R112). -/
def State.alreadyPending (s : State) (gs : GroupSet) : GroupSet :=
  Tab.ofFn fun g => gs.mem g && (s.group g).pending

/-- APPLY (R111, R112). -/
def carryApply (q : Request) (s : State) : Answer :=
  match parseGroupSet q.options q.body with
  | none => refuse s .badField
  | some gs =>
    if !s.mayApply q.agent gs then refuse s .noRight
    else
      match (if q.agent = 0 then none else s.wrongTrigger gs) with
      | some g => { st := s, outcome := .wrongTrigger, body := small g ++ [(s.triggerOf g).code] }
      | none => { st := s.raiseAll gs, outcome := .done, body := [(s.alreadyPending gs).toByte] }

def execApply (p : PortId) (x : Extent) (s : State) : Host.Outcome State Fault Refusal :=
  .next (serve .apply carryApply p x s)

/-- A group's record after SET_GROUP (R114): the configuration written, the counter loaded, and an apply event when
the trigger is ON_STAGE. -/
def Group.configure (g : Group) (f : GroupFields) : Group :=
  ({ g with
      trigger := f.trigger, strobe := f.strobe, period := f.period, applyAgents := f.applyAgents
      pending := g.pending || f.trigger == .onStage } : Group).load

/-- SET_GROUP (R113, R114). -/
def carrySetGroup (q : Request) (s : State) : Answer :=
  match parseSetGroup q.options q.body with
  | none => refuse s .badField
  | some f =>
    let old := s.group f.group
    { st := s.setGroup f.group (old.configure f)
      outcome := .done
      body := [old.trigger.code] ++ small old.strobe ++ bytesOf16 old.period ++ [old.applyAgents.toByte]
        ++ flag (old.configure f).pending }

def execSetGroup (p : PortId) (x : Extent) (s : State) : Host.Outcome State Fault Refusal :=
  .next (serve .setGroup carrySetGroup p x s)

/-- Whether the active sweep is of group `g`, and its cursor then (R116). -/
def State.sweeping (s : State) (g : GroupNo) : Bool :=
  match s.sweep with
  | some w => w.group == g
  | none => false
def State.cursorOf (s : State) (g : GroupNo) : Option SlotNo :=
  match s.sweep with
  | some w => if w.group = g then w.cursor else none
  | none => none

/-- The report of QUERY_GROUP (R116). -/
def State.groupReport (s : State) (g : GroupNo) : List Byte :=
  let r := s.group g
  [r.trigger.code] ++ small r.strobe ++ bytesOf16 r.period ++ [r.applyAgents.toByte] ++ flag r.pending
    ++ optional bytesOf16 (if r.trigger = .period then r.counter.map ticksShown else none) ++ flag (s.sweeping g)
    ++ optional small (s.cursorOf g)

def carryQueryGroup (q : Request) (s : State) : Answer :=
  match parseGroup q.options q.body with
  | none => refuse s .badField
  | some g => { st := s, outcome := .done, body := s.groupReport g }

def execQueryGroup (p : PortId) (x : Extent) (s : State) : Host.Outcome State Fault Refusal :=
  .next (serve .queryGroup carryQueryGroup p x s)

/-- The lowest-numbered group whose pending flag is set (R117). -/
def State.firstPending (s : State) : Option GroupNo := allGroups.find? fun g => (s.group g).pending

/-- No expired flag is set, so INTERNAL's choice falls on sweep work (R117). -/
def State.noLapse (s : State) : Bool := allAgents.all fun a => !(s.row a).expired

/-- The start of a sweep of group `g` (R118). -/
def State.beginSweep (s : State) (g : GroupNo) : State :=
  { s.setGroup g { (s.group g) with pending := false } with sweep := some { group := g, cursor := none } }

/-- SWEEP_START (R117, R118): when the arbiter grants INTERNAL, no lapse item waits and no sweep is active. -/
def sweepStartWork (s : State) : State :=
  if s.grant = some .internal ∧ s.noLapse = true ∧ s.sweep = none then
    match s.firstPending with
    | none => s
    | some g => s.grantInternal.beginSweep g
  else s

def execSweepStart (s : State) : Host.Outcome State Fault Refusal := .next (sweepStartWork s)

/-- The treatment of one record by a sweep step (R119). -/
def State.visit (s : State) (i : SlotNo) (r : Record) : State :=
  match r.applyWork with
  | none => s
  | some r' =>
    (s.setRecord i (some { r' with revision := r.revision + 1 })).liveChanged i r r'.live r.watchers

/-- A step of the active sweep: the next member is visited, or the sweep ends (R119, R120). -/
def State.sweepOnce (s : State) (w : Sweep) : State :=
  match s.nextMember w with
  | none => { s with sweep := none }
  | some i =>
    match s.record i with
    | none => s
    | some r => { s.visit i r with sweep := some { group := w.group, cursor := some i } }

/-- SWEEP_STEP (R117, R119, R120): when the arbiter grants INTERNAL, no lapse item waits and a sweep is active. -/
def sweepStepWork (s : State) : State :=
  if s.grant = some .internal ∧ s.noLapse = true then
    match s.sweep with
    | none => s
    | some w => s.grantInternal.sweepOnce w
  else s

def execSweepStep (s : State) : Host.Outcome State Fault Refusal := .next (sweepStepWork s)

/-- The group watches strobe input `n` (R108). -/
def Group.watchesStrobe (g : Group) (n : StrobeNo) : Bool := g.trigger == .strobe && g.strobe == n

/-- APPLY_STROBE_EDGE (R108): from READY on, an input that was low goes high: one apply event for every STROBE group
that watches it. An input already high gives no edge. -/
def strobeRise (n : StrobeNo) (s : State) : State :=
  if s.phase = .ready ∧ s.applyLevels.mem n = false then
    { s with
      applyLevels := s.applyLevels.insert n
      groups := s.groups.map fun g => if g.watchesStrobe n then g.raise else g }
  else s

def execApplyStrobeEdge (n : StrobeNo) (s : State) : Host.Outcome State Fault Refusal := .next (strobeRise n s)

/-- STROBE_FALLING_EDGE (R108): no event; the next change from low to high is a rising edge. -/
def strobeFall (n : StrobeNo) (s : State) : State :=
  if s.phase = .ready then { s with applyLevels := s.applyLevels.erase n } else s

def execStrobeFallingEdge (n : StrobeNo) (s : State) : Host.Outcome State Fault Refusal := .next (strobeFall n s)

end Sys2Proof.Machine
end

