-- ==== Sys2Proof/Machine/Output.lean ====
section
/-! DEFINITION. Chapter 8: BIND, UNBIND, SET_PARK, QUERY_CHANNEL, LINK_RESUME and the link transmitter. -/
namespace Sys2Proof.Machine

/-- Both sides of a binding made (R140, R143): the record's, with its revision, and the channel's. -/
def State.join (s : State) (c : ChannelNo) (i : SlotNo) (r : Record) : State :=
  (s.setRecord i (some { r with binding := some c, revision := r.revision + 1 })).setChannel c
    { (s.channel c) with binding := some i }

/-- BIND (R142, R143). -/
def carryBind (q : Request) (s : State) : Answer :=
  match parseBind q.options q.body with
  | none => refuse s .badField
  | some (c, h) =>
    onHandle s h fun r =>
      match (s.channel c).binding with
      | some j => { st := s, outcome := .channelBusy, body := encHandle (s.handleOf j) }
      | none =>
        match r.binding with
        | some d => { st := s, outcome := .bound, body := small d }
        | none =>
          { st := (s.join c h.slot r).notice c .value r.live
            outcome := .done
            body := encHandle h ++ bytes16 (r.revision + 1) ++ small c ++ bytes16 r.live
              ++ bytes16 (s.channel c).acked }

def execBind (p : PortId) (x : Extent) (s : State) : Host.Outcome State Fault Refusal :=
  .next (serve .bind carryBind p x s)

/-- The record's side of a binding removed, its revision advanced (R144). -/
def State.unbindRecord (s : State) (i : SlotNo) : State :=
  match s.record i with
  | none => s
  | some r => s.setRecord i (some { r with binding := none, revision := r.revision + 1 })

/-- The revision of the record in a slot. -/
def State.revisionAt (s : State) (i : SlotNo) : Revision :=
  match s.record i with
  | some r => r.revision
  | none => 0

/-- UNBIND (R144). -/
def carryUnbind (q : Request) (s : State) : Answer :=
  match parseChannel q.options q.body with
  | none => refuse s .badField
  | some c =>
    match (s.channel c).binding with
    | none => { st := s, outcome := .done, body := flag false }
    | some i =>
      { st := (s.unbindRecord i).parkChannel c
        outcome := .done
        body := flag true ++ encHandle (s.handleOf i) ++ bytes16 (s.revisionAt i + 1) ++ bytes16 (s.channel c).park }

def execUnbind (p : PortId) (x : Extent) (s : State) : Host.Outcome State Fault Refusal :=
  .next (serve .unbind carryUnbind p x s)

/-- SET_PARK (R145). -/
def carrySetPark (q : Request) (s : State) : Answer :=
  match parseSetPark q.options q.body with
  | none => refuse s .badField
  | some (c, v) =>
    let s' := s.setChannel c { (s.channel c) with park := v }
    let unbound := (s.channel c).binding.isNone
    { st := if unbound then s'.notice c .parked v else s'
      outcome := .done
      body := small c ++ bytes16 (s.channel c).park ++ flag unbound }

def execSetPark (p : PortId) (x : Extent) (s : State) : Host.Outcome State Fault Refusal :=
  .next (serve .setPark carrySetPark p x s)

/-- The frame in flight and its attempt (8.5). -/
def Link.frame : Link → Option Update
  | .idle => none
  | .sending f _ => some f
  | .awaitAck f _ _ => some f
  | .stalled f => some f
def Link.attempt : Link → Option Nat
  | .idle => none
  | .sending _ n => some n
  | .awaitAck _ n _ => some n
  | .stalled _ => some Config.maxAttempts
/-- The remaining ticks of the acknowledge timer, 1 or 2, in AWAIT_ACK (R146). -/
def Link.timer : Link → Option Nat
  | .awaitAck _ _ t => some (ticksShown t)
  | _ => none

/-- A channel's waiting entry and its position, from 1 at the head (R146). -/
def waitingAt (c : ChannelNo) (n : Nat) : List Update → Option (Update × Nat)
  | [] => none
  | u :: us => if u.channel = c then some (u, n) else waitingAt c (n + 1) us

/-- The in-flight description of a channel (R146). -/
def Link.inFlight (l : Link) (c : ChannelNo) : Option Update :=
  match l.frame with
  | some f => if f.channel = c then some f else none
  | none => none

/-- The report of QUERY_CHANNEL (R146). -/
def State.channelReport (s : State) (c : ChannelNo) : List Byte :=
  let ch := s.channel c
  let bound := match ch.binding with
    | some i => (s.record i).map fun r => (s.handleOf i, r.key)
    | none => none
  optional (fun b : Handle × Key => encHandle b.1 ++ bytes16 b.2) bound
    ++ bytes16 ch.park ++ bytes16 ch.driven ++ bytes16 ch.acked
    ++ optional (fun w : Update × Nat => [w.1.kind.code] ++ bytes16 w.1.value ++ [byteOf w.2])
        (waitingAt c 1 s.updateQueue)
    ++ optional (fun f : Update => [f.kind.code] ++ bytes16 f.value) (s.link.inFlight c)
    ++ [s.link.code] ++ optional (fun n => [byteOf n]) s.link.attempt
    ++ optional (fun f : Update => small f.channel) s.link.frame ++ optional bytesOf16 s.link.timer
    ++ [byteOf s.updateQueue.length]

def carryQueryChannel (q : Request) (s : State) : Answer :=
  match parseChannel q.options q.body with
  | none => refuse s .badField
  | some c => { st := s, outcome := .done, body := s.channelReport c }

def execQueryChannel (p : PortId) (x : Extent) (s : State) : Host.Outcome State Fault Refusal :=
  .next (serve .queryChannel carryQueryChannel p x s)

/-- LINK_RESUME (R153). -/
def carryLinkResume (q : Request) (s : State) : Answer :=
  match parseNone q.options q.body with
  | none => refuse s .badField
  | some () =>
    match s.link with
    | .stalled f =>
      { st := { s with link := .sending f 1 }
        outcome := .done
        body := small f.channel ++ [f.kind.code] ++ bytes16 f.value ++ [byteOf s.updateQueue.length] }
    | .idle => { st := s, outcome := .notStalled, body := [s.link.code] }
    | .sending _ _ => { st := s, outcome := .notStalled, body := [s.link.code] }
    | .awaitAck _ _ _ => { st := s, outcome := .notStalled, body := [s.link.code] }

def execLinkResume (p : PortId) (x : Extent) (s : State) : Host.Outcome State Fault Refusal :=
  .next (serve .linkResume carryLinkResume p x s)

/-- TAKE_INTO_FLIGHT (R149): in IDLE with a non-empty queue. -/
def takeHead (s : State) : State :=
  if s.phase = .ready then
    match s.link, s.updateQueue with
    | .idle, u :: us => { s with link := .sending u 1, updateQueue := us }
    | _, _ => s
  else s

def execTakeIntoFlight (s : State) : Host.Outcome State Fault Refusal := .next (takeHead s)

/-- FRAME_END (R149, R183): the five bytes have been sent, and the timer is loaded with 2 ticks. -/
def endFrame (s : State) : State :=
  match s.link with
  | .sending f n => { s with link := .awaitAck f n Config.ackTicks, uldat := updateFrame f }
  | _ => s

def execFrameEnd (s : State) : Host.Outcome State Fault Refusal := .next (endFrame s)

/-- ACKNOWLEDGE (R150, R152): in AWAIT_ACK it ends the frame in flight; in any other state it is ignored. -/
def acknowledged (s : State) : State :=
  match s.link with
  | .awaitAck f _ _ =>
    { s.setChannel f.channel { (s.channel f.channel) with acked := f.value } with link := .idle }
  | _ => s

def execAcknowledge (s : State) : Host.Outcome State Fault Refusal := .next (acknowledged s)

end Sys2Proof.Machine
end

