-- ==== Sys2Proof/Machine/Ownership.lean ====
section
/-! DEFINITION. Chapter 4: CLAIM, RELEASE, CANCEL_CLAIM, REVOKE and RESTORE. -/
namespace Sys2Proof.Machine

/-- The record granted at once to a CLAIM (R76). -/
def Record.grantNow (r : Record) (a : Agent) : Record :=
  { r with state := .held a, staged := none, revision := r.revision + 1 }

/-- An agent's position in a claim queue, from 1 at the head (R69). -/
def Record.position (r : Record) (a : Agent) : Nat := r.queue.idxOf a + 1

/-- A CLAIM granted at once (R76). -/
def claimNow (s : State) (h : Handle) (r : Record) (a : Agent) : Answer :=
  { st := s.setRecord h.slot (some (r.grantNow a))
    outcome := .done
    body := encHandle h ++ bytes16 (r.revision + 1) ++ flag (r.state == .lapsed) ++ flag r.safePending }

/-- The decision of CLAIM by the record's state and owner (R75, R77). -/
def claimDecision (s : State) (h : Handle) (r : Record) (a : Agent) (wait : Bool) : Answer :=
  match r.state with
  | .opened => claimNow s h r a
  | .lapsed => claimNow s h r a
  | .held o =>
    if o = a then { st := s, outcome := .alreadyOwner, body := bytes16 r.revision }
    else if !wait then { st := s, outcome := .owned, body := small o }
    else if r.queue.contains a then
      { st := s, outcome := .alreadyQueued, body := byteOf (r.position a) :: small o }
    else if Config.queueCap ≤ r.queue.length then { st := s, outcome := .queueFull, body := small o }
    else if s.poolFree = 0 then refuse s .claimPoolEmpty
    else
      { st := s.setRecord h.slot (some { r with queue := r.queue ++ [a] })
        outcome := .queued
        body := byteOf (r.queue.length + 1) :: small o ++ bytes16 r.revision }

/-- CLAIM (R74 to R77). -/
def carryClaim (q : Request) (s : State) : Answer :=
  match parseHandle (optWait ||| optGuard) q.options q.body with
  | none => refuse s .badField
  | some (h, guard) =>
    onHandle s h fun r =>
      needRight s q.agent r.cls .claim
        (needGuard s h r guard (claimDecision s h r q.agent (q.options &&& optWait ≠ 0)))

def execClaim (p : PortId) (x : Extent) (s : State) : Host.Outcome State Fault Refusal :=
  .next (serve .claim carryClaim p x s)

/-- RELEASE (R79, R80). -/
def carryRelease (q : Request) (s : State) : Answer :=
  match parseHandle optGuard q.options q.body with
  | none => refuse s .badField
  | some (h, guard) =>
    onHandle s h fun r =>
      needOwner s (r.heldBy q.agent)
        (needGuard s h r guard
          { st := s.handOver h.slot r q.agent
            outcome := .done
            body := encHandle h ++ bytes16 (r.revision + 1) ++ optional small r.queue.head? })

def execRelease (p : PortId) (x : Extent) (s : State) : Host.Outcome State Fault Refusal :=
  .next (serve .release carryRelease p x s)

/-- CANCEL_CLAIM (R81). -/
def carryCancelClaim (q : Request) (s : State) : Answer :=
  match parseHandle 0 q.options q.body with
  | none => refuse s .badField
  | some (h, _) =>
    onHandle s h fun r =>
      if !r.queue.contains q.agent then refuse s .notQueued
      else
        { st := s.setRecord h.slot (some { r with queue := r.queue.erase q.agent })
          outcome := .done
          body := [byteOf (r.position q.agent), byteOf (r.queue.erase q.agent).length] }

def execCancelClaim (p : PortId) (x : Extent) (s : State) : Host.Outcome State Fault Refusal :=
  .next (serve .cancelClaim carryCancelClaim p x s)

/-- The former owner is told REVOKED, unless it is agent 0 (R84). -/
def State.tellRevoked (s : State) (owner : Agent) (h : Handle) (k : Key) : State :=
  if owner = 0 then s else s.condition owner .revoked h k

/-- REVOKE (R83, R84). -/
def carryRevoke (q : Request) (s : State) : Answer :=
  match parseHandle 0 q.options q.body with
  | none => refuse s .badField
  | some (h, _) =>
    onHandle s h fun r =>
      match r.state with
      | .held o =>
        { st := (s.tellRevoked o h r.key).handOver h.slot r q.agent
          outcome := .done
          body := encHandle h ++ bytes16 (r.revision + 1) ++ small o ++ optional small r.queue.head? }
      | .opened => { st := s, outcome := .notHeld, body := [r.state.code] }
      | .lapsed => { st := s, outcome := .notHeld, body := [r.state.code] }

def execRevoke (p : PortId) (x : Extent) (s : State) : Host.Outcome State Fault Refusal :=
  .next (serve .revoke carryRevoke p x s)

/-- RESTORE (R86). -/
def carryRestore (q : Request) (s : State) : Answer :=
  match parseHandle 0 q.options q.body with
  | none => refuse s .badField
  | some (h, _) =>
    onHandle s h fun r =>
      if r.state = .lapsed then
        { st := s.setRecord h.slot
            (some { r with state := .opened, safePending := false, revision := r.revision + 1 })
          outcome := .done
          body := encHandle h ++ bytes16 (r.revision + 1) ++ flag r.safePending }
      else { st := s, outcome := .notLapsed, body := [r.state.code] }

def execRestore (p : PortId) (x : Extent) (s : State) : Host.Outcome State Fault Refusal :=
  .next (serve .restore carryRestore p x s)

end Sys2Proof.Machine
end

