-- ==== Sys2Proof/Machine/Flags.lean ====
section
/-! DEFINITION. The flags the outside reads: the ATTN line of a port, the port status byte, the LAST byte, and the
session flags of a fetch (R137, R168, R177, R180). -/
namespace Sys2Proof.Machine

/-- The READY output (R175). -/
def State.readyOut (s : State) : Bool := s.phase == .ready

/-- Whether an agent ATTACHED through port `p` has something to fetch: entries, OVERFLOW, and for agent 0
LINK_STALLED or a lost agent (R137). -/
def State.hasAttention (s : State) (p : PortId) (a : Agent) : Bool :=
  let row := s.row a
  row.state == .attached && row.port == some p
    && (!row.attention.isEmpty || row.overflow || (a == 0 && (s.linkStalled || !s.lostAgents.isEmpty)))

/-- The ATTN line of a port (R137). -/
def State.attn (s : State) (p : PortId) : Bool :=
  (s.port p).response.isSome || allAgents.any (s.hasAttention p)

/-- The five conditions of a port (R158). -/
inductive PortCond where
  | empty
  | submitted
  | taken
  | orphaned
  | responseWaiting
  deriving DecidableEq, Repr

/-- A port's condition, from its buffers and orphan mark (R158). -/
def Port.cond (q : Port) : PortCond :=
  match q.request with
  | .submitted _ => .submitted
  | .taken => if q.orphan then .orphaned else .taken
  | .empty => if q.response.isSome then .responseWaiting else .empty

def bitIf (b : Bool) (n : Nat) : Byte := if b then (1 : Byte) <<< n else 0

/-- The port status byte (R168, R177). -/
def State.statusByte (s : State) (p : PortId) : Byte :=
  let c := (s.port p).cond
  bitIf s.readyOut 7 ||| bitIf (c == .submitted) 6 ||| bitIf (c == .taken || c == .orphaned) 5
    ||| bitIf (c == .responseWaiting) 4 ||| bitIf (s.attn p) 3 ||| bitIf (c == .orphaned) 2

/-- The LAST byte (R177). -/
def LastCode.code : LastCode → Byte
  | .none => 0x00
  | .accepted => 0x01
  | .occupied => 0x02
  | .notReady => 0x03
  | .collected => 0x04
  | .collectAborted => 0x05
  | .noResponse => 0x06
  | .cancelled => 0x07
  | .cancelTooLate => 0x08
  | .cancelNothing => 0x09
  | .portReset => 0x0A
  | .unknownTransaction => 0x0B
  | .frameIncompleteByte => 0x10
  | .frameLength => 0x11
  | .frameCrc => 0x12

/-- The session flags of a fetch: bit 0 OVERFLOW, bit 1 LINK_STALLED (R180). -/
def flagsByte (overflow linkStalled : Bool) : Byte := bitIf overflow 0 ||| bitIf linkStalled 1

end Sys2Proof.Machine
end

