-- ==== Sys2Proof/Machine/Ports.lean ====
section
/-! DEFINITION. Chapter 9: SPI transactions. A transaction acts at the end of its first byte and at the deassertion of
nCS (R159). A transaction command is the deassertion; where no END_OF_FIRST_BYTE came before it in the transaction, it
is the whole transaction, its first byte ending just before (log 4). -/
namespace Sys2Proof.Machine

/-- The transaction in progress of a port, changed. -/
def State.setTxn (s : State) (p : PortId) (t : Txn) : State := s.setPort p { (s.port p) with txn := t }

/-- What the port settles at the end of a first byte (R159, R166, R168). -/
def State.settle (s : State) (p : PortId) (first : Byte) : Txn :=
  if first = codeSubmit then .submit
  else if first = codeCollect then
    .collect (if (s.port p).cond = .responseWaiting then (s.port p).response else none)
  else if first = codeStatus then .status (s.statusByte p) (s.port p).last.code
  else if first = codeCancel then .cancel
  else if first = codeResetPort then .resetPort
  else .unknown

/-- The end of the first byte, in a transaction that the port acts on (R159). -/
def firstByte (p : PortId) (first : Byte) (s : State) : State :=
  if s.phase = .inReset then s
  else if (s.port p).txn = .idle then s.setTxn p (s.settle p first)
  else s

/-- END_OF_FIRST_BYTE (R159). -/
def execEndOfFirstByte (p : PortId) (first : Byte) (s : State) : Host.Outcome State Fault Refusal :=
  .next (firstByte p first s)

/-- `n` bytes 0xFF. -/
def ones (n : Nat) : List Byte := List.replicate n 0xFF

/-- The first byte's 0xFF, then what was settled, then 0xFF, for `n` whole bytes after the first (R159, R166, R168). -/
def shiftedOut (settled : List Byte) (n : Nat) : List Byte :=
  0xFF :: settled.take n ++ ones (n - settled.length)

/-- A transaction run while nRST is low: the port answers nothing, and what SDO carries is free (R173, log 8). -/
def State.inResetTransaction (s : State) (p : PortId) (n : Nat) : State :=
  { s.setPort p
      { (s.port p) with sdo := (List.range (n + 1)).map fun i => Config.resetShiftOut (s.freeDraws + i) } with
    freeDraws := s.freeDraws + (n + 1) }

/-- The end of a transaction: its effect on the port, SDO's record, and no transaction in progress. -/
def State.endTransaction (s : State) (p : PortId) (q : Port) (out : List Byte) : State :=
  s.setPort p { q with txn := .idle, sdo := out }

/-- Run the deassertion `act` of a transaction whose first byte is `first` and which clocked `n` whole bytes after it:
in reset it is not answered; a port that is ignoring an assertion, or in another transaction, has no such transaction
to end (log 2). -/
def transaction (p : PortId) (first : Byte) (n : Nat) (act : Txn → State → State) (s : State) : State :=
  if s.phase = .inReset then s.inResetTransaction p n
  else act ((firstByte p first s).port p).txn (firstByte p first s)

/-! ### SUBMIT -/

/-- The integrity check of a request frame (R162): the LAST code of the failure, if one test fails. `extra` is the
bits clocked beyond whole bytes. -/
def frameFault (frame : List Byte) (extra : Fin 8) : Option LastCode :=
  if extra ≠ 0 then some .frameIncompleteByte
  else
    match frame with
    | [] => some .frameLength
    | len :: _ =>
      if len.toNat ≠ frame.length ∨ len.toNat < Config.minFrame then some .frameLength
      else if crc8 frame.dropLast ≠ frame.getLast?.getD 0 then some .frameCrc
      else none

/-- The port after the deassertion of a SUBMIT: READY, integrity and occupancy are tested in this order (R161). -/
def submitPort (q : Port) (ready : Bool) (frame : List Byte) (extra : Fin 8) : Port :=
  if !ready then { q with last := .notReady }
  else
    match frameFault frame extra with
    | some c => { q with last := c }
    | none =>
      if q.cond = .empty then { q with request := .submitted frame, last := .accepted }
      else { q with last := .occupied }

def submitEnd (p : PortId) (frame : List Byte) (extra : Fin 8) (t : Txn) (s : State) : State :=
  match t with
  | .submit =>
    s.endTransaction p (submitPort (s.port p) s.readyOut frame extra) (ones (frame.length + 1))
  | _ => s

/-- SUBMIT (R161, R162, R172). -/
def execSubmit (p : PortId) (frame : List Byte) (extra : Fin 8) (s : State) : Host.Outcome State Fault Refusal :=
  .next (transaction p codeSubmit frame.length (submitEnd p frame extra) s)

/-! ### COLLECT -/

/-- The deassertion of a COLLECT that clocked `n` whole bytes after its first (R166, R167). -/
def collectEnd (p : PortId) (n : Nat) (t : Txn) (s : State) : State :=
  match t with
  | .collect (some resp) =>
    if resp.length ≤ n then
      s.endTransaction p { (s.port p) with response := none, last := .collected } (shiftedOut resp n)
    else s.endTransaction p { (s.port p) with last := .collectAborted } (shiftedOut resp n)
  | .collect none => s.endTransaction p { (s.port p) with last := .noResponse } (shiftedOut [0x00] n)
  | _ => s

/-- COLLECT (R166, R167, R172). -/
def execCollect (p : PortId) (bits : Nat) (s : State) : Host.Outcome State Fault Refusal :=
  .next (transaction p codeCollect (bits / 8) (collectEnd p (bits / 8)) s)

/-! ### STATUS -/

/-- The deassertion of a STATUS: nothing changes but SDO's record (R168). -/
def statusEnd (p : PortId) (n : Nat) (t : Txn) (s : State) : State :=
  match t with
  | .status a b => s.endTransaction p (s.port p) (shiftedOut [a, b] n)
  | _ => s

/-- STATUS (R168, R172). -/
def execStatus (p : PortId) (bits : Nat) (s : State) : Host.Outcome State Fault Refusal :=
  .next (transaction p codeStatus (bits / 8) (statusEnd p (bits / 8)) s)

/-! ### CANCEL -/

/-- The port after a CANCEL, by its condition (R169). -/
def cancelPort (q : Port) : Port :=
  match q.cond with
  | .submitted => { q with request := .empty, last := .cancelled }
  | .taken => { q with last := .cancelTooLate }
  | .orphaned => { q with last := .cancelTooLate }
  | .responseWaiting => { q with last := .cancelTooLate }
  | .empty => { q with last := .cancelNothing }

def cancelEnd (p : PortId) (n : Nat) (t : Txn) (s : State) : State :=
  match t with
  | .cancel => s.endTransaction p (cancelPort (s.port p)) (ones (n + 1))
  | _ => s

/-- CANCEL (R169, R172). -/
def execCancel (p : PortId) (bits : Nat) (s : State) : Host.Outcome State Fault Refusal :=
  .next (transaction p codeCancel (bits / 8) (cancelEnd p (bits / 8)) s)

/-! ### RESET_PORT -/

/-- The port after a RESET_PORT, by its condition (R170). -/
def clearPort (q : Port) : Port :=
  match q.cond with
  | .submitted => { q with request := .empty, last := .portReset }
  | .taken => { q with orphan := true, last := .portReset }
  | .orphaned => { q with last := .portReset }
  | .responseWaiting => { q with response := none, last := .portReset }
  | .empty => { q with last := .portReset }

def resetEnd (p : PortId) (n : Nat) (t : Txn) (s : State) : State :=
  match t with
  | .resetPort => s.endTransaction p (clearPort (s.port p)) (ones (n + 1))
  | _ => s

/-- RESET_PORT (R170, R171, R172). -/
def execResetPort (p : PortId) (bits : Nat) (s : State) : Host.Outcome State Fault Refusal :=
  .next (transaction p codeResetPort (bits / 8) (resetEnd p (bits / 8)) s)

/-! ### Further transaction events -/

def unknownEnd (p : PortId) (n : Nat) (t : Txn) (s : State) : State :=
  match t with
  | .unknown => s.endTransaction p { (s.port p) with last := .unknownTransaction } (ones (n + 1))
  | _ => s

/-- UNKNOWN_TRANSACTION (R159): LAST alone changes. A first byte that names a kind is no such transaction (log 2). -/
def execUnknownTransaction (p : PortId) (first : Byte) (bits : Nat) (s : State) : Host.Outcome State Fault Refusal :=
  .next (if transactionCodes.contains first then s
         else transaction p first (bits / 8) (unknownEnd p (bits / 8)) s)

/-- NO_COMPLETE_FIRST_BYTE (R159): fewer than eight SCK edges, so the assertion has no effect and LAST stays. -/
def execNoCompleteFirstByte (_p : PortId) (_edges : Fin 8) (s : State) : Host.Outcome State Fault Refusal := .next s

/-- The deassertion of an ignored assertion re-arms the port (R159). The manual does not say what SDO carries during
such an assertion: it is no transaction of the port, and the model leaves the record `sdo` as it was (DESIGN CHOICE,
logs 4 and 13). -/
def rearm (p : PortId) (s : State) : State :=
  if (s.port p).txn = .ignored then s.setTxn p .idle else s

/-- IGNORED_ASSERTION_AT_RELEASE (R159). -/
def execIgnoredAssertionAtRelease (p : PortId) (s : State) : Host.Outcome State Fault Refusal := .next (rearm p s)

end Sys2Proof.Machine
end

