-- ==== Sys2Proof/Machine/Rights.lean ====
section
/-! DEFINITION. Chapter 2: SET_RIGHTS. -/
namespace Sys2Proof.Machine

/-- SET_RIGHTS (R33): the response carries the agent, the class, the set now held and the set replaced. -/
def carrySetRights (q : Request) (s : State) : Answer :=
  match parseSetRights q.options q.body with
  | none => refuse s .badField
  | some (b, c, rs) =>
    { st := s.setRightsOf b c rs
      outcome := .done
      body := small b ++ small c ++ [rs.toByte, (s.rightsOf b c).toByte] }

def execSetRights (p : PortId) (x : Extent) (s : State) : Host.Outcome State Fault Refusal :=
  .next (serve .setRights carrySetRights p x s)

end Sys2Proof.Machine
end

