-- ==== Sys2Proof/Machine/Sessions.lean ====
section
/-! DEFINITION. Chapter 3: ATTACH, DETACH, KEEPALIVE, QUERY_AGENT, RESTART and the lapse item. -/
namespace Sys2Proof.Machine

/-- The next epoch: one more, with 255 followed by 1 (R55). -/
def nextEpoch (e : Epoch) : Epoch := if e = 255 then 1 else e + 1

/-- The session that an accepted ATTACH begins (R55). -/
def AgentRow.begin (row : AgentRow) (p : PortId) (period : Nat) : AgentRow :=
  { row with
    state := .attached, epoch := nextEpoch row.epoch, port := some p, period := some period
    countdown := loadCount (some period), expired := false }

/-- ATTACH (R54 to R57): over a live session, the old session lapses first. -/
def carryAttach (q : Request) (s : State) : Answer :=
  match parseAttach q.agent q.options q.body with
  | none => refuse s .badField
  | some n =>
    let previous := (s.row q.agent).state
    let s' := if previous = .attached then s.lapseAgent q.agent else s
    let row := (s'.row q.agent).begin q.port n
    { st := s'.setRow q.agent row
      outcome := .done
      body := row.epoch :: bytesOf16 n ++ [previous.code] ++ flag (previous == .attached) }

def execAttach (p : PortId) (x : Extent) (s : State) : Host.Outcome State Fault Refusal :=
  .next (serve .attach carryAttach p x s)

/-- Release the record of slot `i` as RELEASE by `a` would (step 3 of R59). -/
def State.releaseSlot (a : Agent) (s : State) (i : SlotNo) : State :=
  match s.record i with
  | none => s
  | some r => s.handOver i r a

/-- The six steps of an accepted DETACH (R59). -/
def State.detachAgent (s : State) (a : Agent) : State :=
  let s' := ((s.dropAgent a).heldSlots a).foldl (State.releaseSlot a) (s.dropAgent a)
  (s'.setRow a (s'.row a).leave).clearSupervisor a

/-- DETACH (R59, R60): the response counts the records released, those handed to a waiter, the claim entries
returned and the watches removed. -/
def carryDetach (q : Request) (s : State) : Answer :=
  match parseNone q.options q.body with
  | none => refuse s .badField
  | some () =>
    let held := (s.dropAgent q.agent).heldSlots q.agent
    let handed := held.filter fun i =>
      match (s.dropAgent q.agent).record i with
      | some r => !r.queue.isEmpty
      | none => false
    { st := s.detachAgent q.agent
      outcome := .done
      body := bytesOf16 held.length ++ [byteOf handed.length] ++ [byteOf (s.claimsOf q.agent)]
        ++ bytesOf16 (s.watchesOf q.agent) }

def execDetach (p : PortId) (x : Extent) (s : State) : Host.Outcome State Fault Refusal :=
  .next (serve .detach carryDetach p x s)

/-- KEEPALIVE (R58): the period, and the ticks held just before the renewal. -/
def carryKeepalive (q : Request) (s : State) : Answer :=
  match parseNone q.options q.body with
  | none => refuse s .badField
  | some () =>
    { st := s, outcome := .done, body := bytesOf16 ((s.row q.agent).period.getD 0) ++ bytesOf16 q.ticksBefore }

def execKeepalive (p : PortId) (x : Extent) (s : State) : Host.Outcome State Fault Refusal :=
  .next (serve .keepalive carryKeepalive p x s)

/-- The remaining ticks as QUERY_AGENT reports them (R65). -/
def AgentRow.remaining (row : AgentRow) : Option Nat :=
  match row.countdown with
  | some n => some n
  | none => if row.expired then some 0 else none

/-- The report of QUERY_AGENT (R65). -/
def State.agentReport (s : State) (b : Agent) : List Byte :=
  let row := s.row b
  [row.state.code, row.epoch] ++ optional small row.port ++ optional bytesOf16 row.period
    ++ optional bytesOf16 row.remaining ++ bytesOf16 (s.heldSlots b).length ++ [byteOf (s.claimsOf b)]
    ++ [byteOf row.attention.length] ++ (List.finRange 8).map fun c => (s.rightsOf b c).toByte

def carryQueryAgent (q : Request) (s : State) : Answer :=
  match parseAgent q.options q.body with
  | none => refuse s .badField
  | some b => { st := s, outcome := .done, body := s.agentReport b }

def execQueryAgent (p : PortId) (x : Extent) (s : State) : Host.Outcome State Fault Refusal :=
  .next (serve .queryAgent carryQueryAgent p x s)

/-- Insert a channel in order of rank, then of number. -/
def insertRanked (rank : ChannelNo → Nat) (c : ChannelNo) : List ChannelNo → List ChannelNo
  | [] => [c]
  | d :: ds =>
    if rank c < rank d ∨ (rank c = rank d ∧ c < d) then c :: d :: ds else d :: insertRanked rank c ds

/-- The channels in the order of a free ranking (log 9). -/
def rankOrder (rank : ChannelNo → Nat) (cs : List ChannelNo) : List ChannelNo := cs.foldr (insertRanked rank) []

/-- The bound channels, by number. -/
def State.boundChannels (s : State) : List ChannelNo := allChannels.filter fun c => (s.channel c).binding.isSome

/-- The record store after RESTART (R29): every slot FREE with its incarnation kept, the list rebuilt, the index
empty. -/
def State.clearStore (s : State) : State :=
  { s with
    slots := s.slots.map fun sl => { inc := sl.inc, record := none }
    keyIndex := []
    freeList := allSlots }

/-- An agent's row after RESTART (R66). -/
def AgentRow.restart (a : Agent) (row : AgentRow) : AgentRow :=
  if a = 0 then { row with overflow := false, attention := [], countdown := loadCount row.period, expired := false }
  else if row.state = .detached then row
  else row.leave

/-- What RESTART does to every block (R66, R67). -/
def State.restartAll (s : State) : State :=
  let s' := (rankOrder (Config.restartRank s.freeDraws) s.boundChannels).foldl State.parkChannel s.clearStore
  { s' with
    agents := s'.agents.mapFin AgentRow.restart
    linkStalled := false
    lostAgents := FinSet.empty 8
    groups := s'.groups.map fun g => ({ g with pending := false } : Group).load
    sweep := none
    freeDraws := s.freeDraws + 1 }

/-- RESTART (R66 to R68): the response counts the records retired, the sessions of agents 1 to 7 made DETACHED, and
the channels unbound. -/
def carryRestart (q : Request) (s : State) : Answer :=
  match parseNone q.options q.body with
  | none => refuse s .badField
  | some () =>
    let retired := (allSlots.filter fun i => (s.record i).isSome).length
    let ended := (allAgents.filter fun a => a != 0 && (s.row a).state != .detached).length
    { st := s.restartAll
      outcome := .done
      body := bytesOf16 retired ++ [byteOf ended, byteOf s.boundChannels.length] }

def execRestart (p : PortId) (x : Extent) (s : State) : Host.Outcome State Fault Refusal :=
  .next (serve .restart carryRestart p x s)

/-- The lowest-numbered agent whose expired flag is set (R117). -/
def State.firstExpired (s : State) : Option Agent := allAgents.find? fun a => (s.row a).expired

/-- LAPSE_ITEM (R61 to R63, R117): when the arbiter grants INTERNAL and an expired flag is set, the lapse of the
lowest-numbered such agent. -/
def lapseWork (s : State) : State :=
  if s.grant = some .internal then
    match s.firstExpired with
    | none => s
    | some a => s.grantInternal.lapseAgent a
  else s

def execLapseItem (s : State) : Host.Outcome State Fault Refusal := .next (lapseWork s)

end Sys2Proof.Machine
end

