-- ==== Sys2Proof/Machine/Staging.lean ====
section
/-! DEFINITION. Chapter 5: STAGE, UNSTAGE and TUNE. -/
namespace Sys2Proof.Machine

/-- The record after a STAGE that waits for a sweep (R92): a supervisor STAGE on a LAPSED record clears safe pending. -/
def Record.stageWaiting (r : Record) (a : Agent) (v : Value) : Record :=
  { r with
    staged := some v
    safePending := if a = 0 ∧ r.state = .lapsed then false else r.safePending
    revision := r.revision + 1 }

/-- The record after a STAGE applied at once (R93). -/
def Record.stageNow (r : Record) (v : Value) : Record :=
  { r with live := v, staged := none, safePending := false, revision := r.revision + 1 }

/-- The response of an accepted STAGE (R94). -/
def stageBody (h : Handle) (before after : Record) (applied : Bool) : List Byte :=
  encHandle h ++ bytes16 after.revision ++ flag applied ++ flag before.staged.isSome ++ bytes16 after.live
    ++ flag after.safePending

/-- The execution of an accepted STAGE, by the trigger of the record's group as it stands (R92, R93). -/
def stageAccepted (s : State) (h : Handle) (r : Record) (a : Agent) (v : Value) : Answer :=
  if s.triggerOf r.group = .onStage then
    { st := (s.setRecord h.slot (some (r.stageNow v))).liveChanged h.slot r v (r.watchers.erase a)
      outcome := .done
      body := stageBody h r (r.stageNow v) true }
  else
    { st := s.setRecord h.slot (some (r.stageWaiting a v))
      outcome := .done
      body := stageBody h r (r.stageWaiting a v) false }

/-- STAGE (R90 to R94). -/
def carryStage (q : Request) (s : State) : Answer :=
  match parseStage q.options q.body with
  | none => refuse s .badField
  | some (h, v, guard) =>
    onHandle s h fun r =>
      needRight s q.agent r.cls .stage
        (needOwner s (r.stageableBy q.agent)
          (needGuard s h r guard
            (if !within v r.min r.max then
               { st := s, outcome := .outOfRange, body := bytes16 r.min ++ bytes16 r.max }
             else stageAccepted s h r q.agent v)))

def execStage (p : PortId) (x : Extent) (s : State) : Host.Outcome State Fault Refusal :=
  .next (serve .stage carryStage p x s)

/-- UNSTAGE (R96). -/
def carryUnstage (q : Request) (s : State) : Answer :=
  match parseHandle optGuard q.options q.body with
  | none => refuse s .badField
  | some (h, guard) =>
    onHandle s h fun r =>
      needRight s q.agent r.cls .stage
        (needOwner s (r.stageableBy q.agent)
          (needGuard s h r guard
            (match r.staged with
             | none => { st := s, outcome := .nothingStaged, body := bytes16 r.revision }
             | some v =>
               { st := s.setRecord h.slot (some { r with staged := none, revision := r.revision + 1 })
                 outcome := .done
                 body := encHandle h ++ bytes16 (r.revision + 1) ++ bytes16 v })))

def execUnstage (p : PortId) (x : Extent) (s : State) : Host.Outcome State Fault Refusal :=
  .next (serve .unstage carryUnstage p x s)

/-- The record with the parts of a TUNE written, its revision advanced (R99). -/
def Record.tuned (r : Record) (f : TuneFields) : Record :=
  { r with
    min := match f.limits with | some l => l.1 | none => r.min
    max := match f.limits with | some l => l.2 | none => r.max
    safe := f.safe.getD r.safe
    policy := f.policy.getD r.policy
    group := f.group.getD r.group
    revision := r.revision + 1 }

/-- The combined limit test (R98), on the record as it would stand: the item reported and its value, if a test
fails. Items: 0 LIMITS, 1 LIVE, 2 STAGED, 3 SAFE (R180). -/
def Record.limitConflict (r : Record) : Option (Byte × Value) :=
  if r.max.slt r.min then some (0, r.min)
  else if !within r.live r.min r.max then some (1, r.live)
  else
    match r.staged with
    | some v =>
      if !within v r.min r.max then some (2, v)
      else if !within r.safe r.min r.max then some (3, r.safe) else none
    | none => if !within r.safe r.min r.max then some (3, r.safe) else none

/-- The application that a TUNE makes: work present on a record that it moves into an ON_STAGE group (R102). -/
def State.tuneWork (s : State) (r : Record) (f : TuneFields) : Option Record :=
  if (r.tuned f).group ≠ r.group ∧ s.triggerOf (r.tuned f).group = .onStage then (r.tuned f).applyWork else none

/-- The response of an accepted TUNE (R99). -/
def tuneBody (h : Handle) (r : Record) (applied : Bool) : List Byte :=
  encHandle h ++ bytes16 r.revision ++ bytes16 r.min ++ bytes16 r.max ++ bytes16 r.safe ++ [r.policy.code]
    ++ small r.group ++ flag r.safePending ++ flag applied

/-- The execution of an accepted TUNE (R99, R101, R102). -/
def tuneAccepted (s : State) (r : Record) (a : Agent) (f : TuneFields) : Answer :=
  match s.tuneWork r f with
  | some r' =>
    { st := (s.setRecord f.handle.slot (some r')).liveChanged f.handle.slot r r'.live (r.watchers.erase a)
      outcome := .done
      body := tuneBody f.handle r' true }
  | none =>
    { st := s.setRecord f.handle.slot (some (r.tuned f))
      outcome := .done
      body := tuneBody f.handle (r.tuned f) false }

/-- TUNE (R97 to R102). -/
def carryTune (q : Request) (s : State) : Answer :=
  match parseTune q.options q.body with
  | none => refuse s .badField
  | some f =>
    onHandle s f.handle fun r =>
      needRight s q.agent r.cls .tune
        (needOwner s (q.agent == 0 || r.heldBy q.agent)
          (needGuard s f.handle r f.guard
            (match (r.tuned f).limitConflict with
             | some (item, v) =>
               { st := s
                 outcome := .limitConflict
                 body := item :: bytes16 (r.tuned f).min ++ bytes16 (r.tuned f).max ++ bytes16 v }
             | none => tuneAccepted s r q.agent f)))

def execTune (p : PortId) (x : Extent) (s : State) : Host.Outcome State Fault Refusal :=
  .next (serve .tune carryTune p x s)

end Sys2Proof.Machine
end

