-- ==== Sys2Proof/Machine/Startup.lean ====
section
/-! DEFINITION. Chapter 10: the assertion and release of nRST, and the rise of READY (R173 to R175). -/
namespace Sys2Proof.Machine

/-- NRST_ASSERT (R173): every block at its power-on values, whatever was under way. The commands waiting and the
model's draw counter are no part of the chip. -/
def resetAssert (s : State) : State := { State.reset with freeDraws := s.freeDraws, pending := s.pending }

def execNrstAssert (s : State) : Host.Outcome State Fault Refusal := .next (resetAssert s)

/-- A port at the release of nRST: an nCS already low is an assertion it ignores (R159). -/
def Port.atRelease (q : Port) (low : Bool) : Port := { q with txn := if low then .ignored else .idle }

/-- NRST_RELEASE (R174): initialisation begins. The operands are the levels of nCS at the release. -/
def resetRelease (low0 low1 : Bool) (s : State) : State :=
  if s.phase = .inReset then
    { (s.setPort 0 ((s.port 0).atRelease low0)).setPort 1 ((s.port 1).atRelease low1) with phase := .initialising }
  else s

def execNrstRelease (low0 low1 : Bool) (s : State) : Host.Outcome State Fault Refusal :=
  .next (resetRelease low0 low1 s)

/-- READY_RISE (R12, R174, R175): initialisation is complete: the free-slot list is 0, 1, ..., 255, and each APPLY
input's present level is its reference. -/
def readyRise (levels : FinSet 4) (s : State) : State :=
  if s.phase = .initialising then { s with phase := .ready, freeList := allSlots, applyLevels := levels } else s

def execReadyRise (levels : FinSet 4) (s : State) : Host.Outcome State Fault Refusal := .next (readyRise levels s)

end Sys2Proof.Machine
end

