-- ==== Sys2Proof/Machine/Timebase.lean ====
section
/-! DEFINITION. The tick and the expiries of the three kinds of timer (R49, R51, R109, R151). A timer that a tick has
brought to zero stands at 0 until its expiry is carried out: within the tick, or as an event of its own (log 5). -/
namespace Sys2Proof.Machine

/-- The expiry of a keepalive countdown that stands at 0: it stops, and the expired flag is set (R51). -/
def AgentRow.expire (row : AgentRow) : AgentRow :=
  if row.countdown = some 0 then { row with countdown := none, expired := true } else row

/-- The expiry of a period counter that stands at 0: an apply event, and the counter is reloaded (R109). -/
def Group.expire (g : Group) : Group :=
  if g.trigger = .period ∧ g.counter = some 0 then { g with pending := true, counter := some g.period } else g

/-- The expiry of an acknowledge timer that stands at 0: the frame is sent again after attempts 1 to 3; after attempt
4 the link stalls, and LINK_STALLED is set when agent 0 is ATTACHED (R133, R151). -/
def State.expireLink (s : State) : State :=
  match s.link with
  | .awaitAck f n 0 =>
    if n < Config.maxAttempts then { s with link := .sending f (n + 1) }
    else { s with link := .stalled f, linkStalled := s.linkStalled || (s.row 0).state == .attached }
  | _ => s

/-- The expiries of every timer that stands at 0. -/
def State.expireAll (s : State) : State :=
  { s with agents := s.agents.map AgentRow.expire, groups := s.groups.map Group.expire }.expireLink

/-- A running timer loses one tick. -/
def tickCount (c : Option Nat) : Option Nat := c.map (· - 1)

def Link.tick : Link → Link
  | .awaitAck f n t => .awaitAck f n (t - 1)
  | l => l

/-- Every running timer decremented (R49). -/
def State.countDown (s : State) : State :=
  { s with
    agents := s.agents.map fun row => { row with countdown := tickCount row.countdown }
    groups := s.groups.map fun g => { g with counter := tickCount g.counter }
    link := s.link.tick }

/-- TICK (R49, R51, R109, R151), from READY on: expiries left from an earlier tick come first (log 5). -/
def ticked (e : Expiries) (s : State) : State :=
  if s.phase = .ready then
    match e with
    | .within => s.expireAll.countDown.expireAll
    | .apart => s.expireAll.countDown
  else s

def execTick (e : Expiries) (s : State) : Host.Outcome State Fault Refusal := .next (ticked e s)

/-- KEEPALIVE_EXPIRY (R51). -/
def execKeepaliveExpiry (a : Agent) (s : State) : Host.Outcome State Fault Refusal :=
  .next (s.setRow a (s.row a).expire)

/-- PERIOD_EXPIRY (R109). -/
def execPeriodExpiry (g : GroupNo) (s : State) : Host.Outcome State Fault Refusal :=
  .next (s.setGroup g (s.group g).expire)

/-- ACKNOWLEDGE_TIMER_EXPIRY (R151). -/
def execAcknowledgeTimerExpiry (s : State) : Host.Outcome State Fault Refusal := .next s.expireLink

end Sys2Proof.Machine
end

