-- ==== Sys2Proof/Machine/Watches.lean ====
section
/-! DEFINITION. Chapter 7: WATCH, UNWATCH and FETCH_ATTENTION. -/
namespace Sys2Proof.Machine

/-- WATCH (R126). -/
def carryWatch (q : Request) (s : State) : Answer :=
  match parseHandle 0 q.options q.body with
  | none => refuse s .badField
  | some (h, _) =>
    onHandle s h fun r =>
      needRight s q.agent r.cls .watch
        { st := s.setRecord h.slot (some { r with watchers := r.watchers.insert q.agent })
          outcome := .done
          body := encHandle h ++ [r.state.code] ++ bytes16 r.live ++ bytes16 r.revision
            ++ flag (r.watchers.mem q.agent) }

def execWatch (p : PortId) (x : Extent) (s : State) : Host.Outcome State Fault Refusal :=
  .next (serve .watch carryWatch p x s)

/-- UNWATCH (R127). -/
def carryUnwatch (q : Request) (s : State) : Answer :=
  match parseHandle 0 q.options q.body with
  | none => refuse s .badField
  | some (h, _) =>
    onHandle s h fun r =>
      if !r.watchers.mem q.agent then refuse s .notWatching
      else
        { st := s.setRecord h.slot (some { r with watchers := r.watchers.erase q.agent })
          outcome := .done
          body := encHandle h }

def execUnwatch (p : PortId) (x : Extent) (s : State) : Host.Outcome State Fault Refusal :=
  .next (serve .unwatch carryUnwatch p x s)

/-- The state after a fetch by `a`: its flags cleared, the first eight entries gone (R135). -/
def State.fetched (s : State) (a : Agent) : State :=
  (s.setRow a { (s.row a) with overflow := false, attention := (s.row a).attention.drop Config.fetchMax }).clearSupervisor a

/-- FETCH_ATTENTION (R135): flags, lost-agent set, the removed entries, the count that remains. -/
def carryFetchAttention (q : Request) (s : State) : Answer :=
  match parseNone q.options q.body with
  | none => refuse s .badField
  | some () =>
    let row := s.row q.agent
    let given := row.attention.take Config.fetchMax
    { st := s.fetched q.agent
      outcome := .done
      body := [flagsByte row.overflow (q.agent == 0 && s.linkStalled),
               if q.agent = 0 then s.lostAgents.toByte else 0, byteOf given.length]
        ++ given.flatMap encEntry ++ [byteOf (row.attention.length - given.length)] }

def execFetchAttention (p : PortId) (x : Extent) (s : State) : Host.Outcome State Fault Refusal :=
  .next (serve .fetchAttention carryFetchAttention p x s)

end Sys2Proof.Machine
end

