-- ==== Sys2Proof/Machine/Dispatch.lean ====
section
/-! DEFINITION. The meaning of each command: one arm per row of spec/opcode_table.json. -/
namespace Sys2Proof.Machine

def exec (i : Instr) (s : State) : Host.Outcome State Fault Refusal :=
  match i with
  | .submit p frame extra => Sys2Proof.Machine.execSubmit p frame extra s
  | .collect p bits => Sys2Proof.Machine.execCollect p bits s
  | .status p bits => Sys2Proof.Machine.execStatus p bits s
  | .cancel p bits => Sys2Proof.Machine.execCancel p bits s
  | .resetPort p bits => Sys2Proof.Machine.execResetPort p bits s
  | .unknownTransaction p first bits => Sys2Proof.Machine.execUnknownTransaction p first bits s
  | .unknownKind p x => Sys2Proof.Machine.execUnknownKind p x s
  | .attach p x => Sys2Proof.Machine.execAttach p x s
  | .detach p x => Sys2Proof.Machine.execDetach p x s
  | .keepalive p x => Sys2Proof.Machine.execKeepalive p x s
  | .queryAgent p x => Sys2Proof.Machine.execQueryAgent p x s
  | .restart p x => Sys2Proof.Machine.execRestart p x s
  | .setRights p x => Sys2Proof.Machine.execSetRights p x s
  | .create p x => Sys2Proof.Machine.execCreate p x s
  | .retire p x => Sys2Proof.Machine.execRetire p x s
  | .lookup p x => Sys2Proof.Machine.execLookup p x s
  | .read p x => Sys2Proof.Machine.execRead p x s
  | .enumerate p x => Sys2Proof.Machine.execEnumerate p x s
  | .claim p x => Sys2Proof.Machine.execClaim p x s
  | .release p x => Sys2Proof.Machine.execRelease p x s
  | .cancelClaim p x => Sys2Proof.Machine.execCancelClaim p x s
  | .revoke p x => Sys2Proof.Machine.execRevoke p x s
  | .restore p x => Sys2Proof.Machine.execRestore p x s
  | .stage p x => Sys2Proof.Machine.execStage p x s
  | .unstage p x => Sys2Proof.Machine.execUnstage p x s
  | .tune p x => Sys2Proof.Machine.execTune p x s
  | .apply p x => Sys2Proof.Machine.execApply p x s
  | .setGroup p x => Sys2Proof.Machine.execSetGroup p x s
  | .queryGroup p x => Sys2Proof.Machine.execQueryGroup p x s
  | .watch p x => Sys2Proof.Machine.execWatch p x s
  | .unwatch p x => Sys2Proof.Machine.execUnwatch p x s
  | .fetchAttention p x => Sys2Proof.Machine.execFetchAttention p x s
  | .bind p x => Sys2Proof.Machine.execBind p x s
  | .unbind p x => Sys2Proof.Machine.execUnbind p x s
  | .setPark p x => Sys2Proof.Machine.execSetPark p x s
  | .queryChannel p x => Sys2Proof.Machine.execQueryChannel p x s
  | .linkResume p x => Sys2Proof.Machine.execLinkResume p x s
  | .lapseItem => Sys2Proof.Machine.execLapseItem s
  | .sweepStart => Sys2Proof.Machine.execSweepStart s
  | .sweepStep => Sys2Proof.Machine.execSweepStep s
  | .tick e => Sys2Proof.Machine.execTick e s
  | .keepaliveExpiry a => Sys2Proof.Machine.execKeepaliveExpiry a s
  | .periodExpiry g => Sys2Proof.Machine.execPeriodExpiry g s
  | .applyStrobeEdge n => Sys2Proof.Machine.execApplyStrobeEdge n s
  | .takeIntoFlight => Sys2Proof.Machine.execTakeIntoFlight s
  | .frameEnd => Sys2Proof.Machine.execFrameEnd s
  | .acknowledge => Sys2Proof.Machine.execAcknowledge s
  | .acknowledgeTimerExpiry => Sys2Proof.Machine.execAcknowledgeTimerExpiry s
  | .nrstAssert => Sys2Proof.Machine.execNrstAssert s
  | .nrstRelease ncs0Low ncs1Low => Sys2Proof.Machine.execNrstRelease ncs0Low ncs1Low s
  | .readyRise levels => Sys2Proof.Machine.execReadyRise levels s
  | .endOfFirstByte p first => Sys2Proof.Machine.execEndOfFirstByte p first s
  | .noCompleteFirstByte p edges => Sys2Proof.Machine.execNoCompleteFirstByte p edges s
  | .ignoredAssertionAtRelease p => Sys2Proof.Machine.execIgnoredAssertionAtRelease p s
  | .strobeFallingEdge n => Sys2Proof.Machine.execStrobeFallingEdge n s

end Sys2Proof.Machine
end

