-- ==== Sys2Proof/Safety.lean ====
section
/-! DEFINITION. The laws the manual says hold at the completion of every request and work step, and the terms the
statements use: when a port's request is served, and what stays unchanged. -/
namespace Sys2Proof.Machine

/-! ### Laws of the manual -/

/-- The law of R2: min ≤ max, and the live, safe and present staged values lie within them. -/
def Record.LimitsLaw (r : Record) : Prop :=
  r.min.sle r.max = true ∧ within r.live r.min r.max = true ∧ within r.safe r.min r.max = true
    ∧ ∀ v, r.staged = some v → within v r.min r.max = true

/-- The law of R69 on one record: a claim queue is no longer than 4, holds no agent twice and not the owner, and only
a HELD record has a non-empty one. -/
def Record.QueueLaw (r : Record) : Prop :=
  r.queue.length ≤ 4 ∧ r.queue.Nodup ∧ (∀ a ∈ r.queue, r.state ≠ .held a)
    ∧ (r.queue ≠ [] → ∃ a, r.state = .held a)

def State.LimitsLaw (s : State) : Prop := ∀ i r, s.record i = some r → r.LimitsLaw
/-- The law of R69, with its bound on the claim entries in use. -/
def State.QueueLaw (s : State) : Prop := (∀ i r, s.record i = some r → r.QueueLaw) ∧ s.claimsInUse ≤ 64

/-- The laws of R1, R10 and R12: the index is strictly ascending and holds exactly the active records; from READY on
the free-slot list holds exactly the FREE slots, none twice; before READY no record is active. -/
def State.StoreLaw (s : State) : Prop :=
  s.keyIndex.Pairwise (fun e f => e.1.toNat < f.1.toNat)
    ∧ (∀ k i, (k, i) ∈ s.keyIndex ↔ ∃ r, s.record i = some r ∧ r.key = k)
    ∧ (∀ i r, s.record i = some r → r.key ≠ 0)
    ∧ (s.phase = .ready → s.freeList.Nodup ∧ ∀ i, i ∈ s.freeList ↔ s.record i = none)
    ∧ (s.phase ≠ .ready → ∀ i, s.record i = none)

/-- The laws of R6, R71 and R125: owners, claimants and watchers are ATTACHED. -/
def State.MembersLaw (s : State) : Prop :=
  ∀ i r, s.record i = some r →
    (∀ a, r.state = .held a → (s.row a).state = .attached)
      ∧ (∀ a ∈ r.queue, (s.row a).state = .attached)
      ∧ (∀ a, r.watchers.mem a = true → (s.row a).state = .attached)

/-- The laws of R46, R48, R64 and R130 on sessions: port and period are absent exactly when DETACHED; a session that
is not ATTACHED has an empty list, clear flags, a stopped countdown and a clear expired flag. -/
def State.SessionLaw (s : State) : Prop :=
  (∀ a, ((s.row a).state = .detached ↔ (s.row a).port = none) ∧ ((s.row a).state = .detached ↔ (s.row a).period = none)
      ∧ ((s.row a).state ≠ .attached →
          (s.row a).attention = [] ∧ (s.row a).overflow = false ∧ (s.row a).countdown = none ∧ (s.row a).expired = false))
    ∧ ((s.row 0).state ≠ .attached → s.linkStalled = false ∧ s.lostAgents = FinSet.empty 8)
    ∧ s.lostAgents.mem 0 = false

/-- The law of R130: at most 24 entries, one per handle, none with an empty reason set. -/
def State.AttentionLaw (s : State) : Prop :=
  ∀ a, (s.row a).attention.length ≤ 24 ∧ ((s.row a).attention.map (·.handle)).Nodup
    ∧ ∀ e ∈ (s.row a).attention, ∃ n, e.reasons.mem n = true

/-- The laws of R139 and R140: a channel names a slot exactly when that slot's record names the channel; the driven
value is the bound record's live value, or the park value. -/
def State.BindingLaw (s : State) : Prop :=
  (∀ c i, (s.channel c).binding = some i ↔ ∃ r, s.record i = some r ∧ r.binding = some c)
    ∧ (∀ c i r, (s.channel c).binding = some i → s.record i = some r → (s.channel c).driven = r.live)
    ∧ (∀ c, (s.channel c).binding = none → (s.channel c).driven = (s.channel c).park)

/-- The attempts and the timer a transmitter can hold (8.5). -/
def Link.Law : Link → Prop
  | .idle => True
  | .sending _ n => 1 ≤ n ∧ n ≤ 4
  | .awaitAck _ n t => 1 ≤ n ∧ n ≤ 4 ∧ t ≤ 2
  | .stalled _ => True

/-- The law of R147, with the transmitter's attempts: no channel has two waiting entries. -/
def State.LinkLaw (s : State) : Prop := (s.updateQueue.map (·.channel)).Nodup ∧ s.link.Law

/-- The law of R158, with the engine's side: a port never holds more than one of a submitted request, a taken request
and a waiting response; the orphan mark is set on a taken request alone; a request is taken exactly while the engine
holds it. -/
def State.PortLaw (s : State) : Prop :=
  ∀ p, ((s.port p).request ≠ .empty → (s.port p).response = none)
    ∧ ((s.port p).orphan = true → (s.port p).request = .taken)
    ∧ ((s.port p).request = .taken ↔ ∃ c resp, s.engine = .busy p c resp)

/-- The law of R106 and R109: periods in range; the counter runs exactly while the trigger is PERIOD. -/
def State.GroupLaw (s : State) : Prop :=
  ∀ g, 1 ≤ (s.group g).period ∧ (s.group g).period ≤ 60000
    ∧ ((s.group g).counter.isSome = true ↔ (s.group g).trigger = .period)
    ∧ ∀ n, (s.group g).counter = some n → n ≤ (s.group g).period

/-- Before READY every table stands at its power-on value and no request or response is held (R172 to R174). -/
def State.QuietLaw (s : State) : Prop :=
  s.phase ≠ .ready →
    s.slots = State.reset.slots ∧ s.keyIndex = [] ∧ s.rights = State.reset.rights ∧ s.agents = State.reset.agents
      ∧ s.linkStalled = false ∧ s.lostAgents = FinSet.empty 8 ∧ s.groups = State.reset.groups ∧ s.sweep = none
      ∧ s.channels = State.reset.channels ∧ s.updateQueue = [] ∧ s.link = .idle ∧ s.pointer = .port 1
      ∧ s.engine = .free ∧ ∀ p, (s.port p).cond = .empty

/-- Every law of the manual together. -/
structure State.Laws (s : State) : Prop where
  limits : s.LimitsLaw
  queues : s.QueueLaw
  store : s.StoreLaw
  members : s.MembersLaw
  sessions : s.SessionLaw
  attention : s.AttentionLaw
  bindings : s.BindingLaw
  link : s.LinkLaw
  ports : s.PortLaw
  groups : s.GroupLaw
  quiet : s.QuietLaw

/-! ### Requests, for the statements -/

/-- The command of a request kind. -/
def requestInstr (k : ReqKind) (p : PortId) (x : Extent) : Instr :=
  match k with
  | .attach => .attach p x
  | .detach => .detach p x
  | .keepalive => .keepalive p x
  | .queryAgent => .queryAgent p x
  | .restart => .restart p x
  | .setRights => .setRights p x
  | .create => .create p x
  | .retire => .retire p x
  | .lookup => .lookup p x
  | .read => .read p x
  | .enumerate => .enumerate p x
  | .claim => .claim p x
  | .release => .release p x
  | .cancelClaim => .cancelClaim p x
  | .revoke => .revoke p x
  | .restore => .restore p x
  | .stage => .stage p x
  | .unstage => .unstage p x
  | .tune => .tune p x
  | .apply => .apply p x
  | .setGroup => .setGroup p x
  | .queryGroup => .queryGroup p x
  | .watch => .watch p x
  | .unwatch => .unwatch p x
  | .fetchAttention => .fetchAttention p x
  | .bind => .bind p x
  | .unbind => .unbind p x
  | .setPark => .setPark p x
  | .queryChannel => .queryChannel p x
  | .linkResume => .linkResume p x

/-- The arbiter grants the free engine to port `p`, whose submitted frame `f` has the kind code `code` (R163, R164). -/
structure State.Offers (s : State) (p : PortId) (f : List Byte) (code : Byte) : Prop where
  granted : s.grant = some (.port p)
  submitted : (s.port p).request = .submitted f
  kind : frameKind f = code

/-- The request is past checks 1 to 3: its agent is ATTACHED with the frame's epoch through this port, and is agent 0
for a supervisor-only kind (R36, R38). -/
structure State.Admits (s : State) (p : PortId) (k : ReqKind) (f : List Byte) (a : Agent) : Prop where
  offers : s.Offers p f k.code
  agent : (frameAgent f).toNat = a.val
  notAttach : k ≠ .attach
  attached : (s.row a).state = .attached
  epoch : frameEpoch f = (s.row a).epoch
  port : (s.row a).port = some p
  supervisor : k.supervisorOnly = true → a = 0

/-- The state once agent `a`'s request is taken from port `p` and has renewed its session (R39, R164). -/
def State.begun (s : State) (p : PortId) (a : Agent) : State := (s.takeFrom p).renew a

/-- The state once the response to frame `f` is delivered to port `p` (R165, R180). -/
def State.answered (s : State) (p : PortId) (f : List Byte) (o : ReqOutcome) (body : List Byte) : State :=
  s.deliverTo p (responseFrame (frameTag f) o body)

/-- A request that names the active record `r` by the handle `h` in an admitted frame (R8). -/
def State.Names (s : State) (h : Handle) (r : Record) : Prop :=
  (s.slots.get h.slot).inc = h.inc ∧ s.record h.slot = some r

/-- A guard is absent or equals the record's revision (R44). -/
def GuardPasses (g : Option (BitVec 16)) (r : Record) : Prop := g = none ∨ g = some r.revision

/-- Port `p` can run a whole transaction: nRST is high, and no transaction is in progress or being ignored (R159). -/
def State.CanTransact (s : State) (p : PortId) : Prop := s.phase ≠ .inReset ∧ (s.port p).txn = .idle

/-- Port `p` can end a transaction of the kind `t`: nRST is high, and no transaction is in progress, or the one whose
first byte was read as that kind (R159). -/
def State.CanEnd (s : State) (p : PortId) (t : Txn) : Prop :=
  s.phase ≠ .inReset ∧ ((s.port p).txn = .idle ∨ (s.port p).txn = t)

/-- Port `p` does not answer the transaction that command `c` runs: nothing changes but the model's record of SDO, whose
bytes are free, and its counter of free values drawn (R173, logs 8 and 12). -/
def State.Unanswered (s : State) (p : PortId) (c : Instr) : Prop :=
  ∃ (out : List Byte) (draws : Nat),
    exec c s = .next { s.setPort p { (s.port p) with sdo := out } with freeDraws := draws }

/-- Run a list of commands, one after the other, stopping at a fault or a refusal. -/
def runCommands : List Instr → State → Host.Outcome State Fault Refusal
  | [], s => .next s
  | c :: cs, s =>
    match exec c s with
    | .next t => runCommands cs t
    | .fault r => .fault r
    | .refused r => .refused r

/-- A claimant's place in the cycle INTERNAL, P0, P1 (R163). -/
def Claimant.place : Claimant → Nat
  | .internal => 0
  | .port p => p.val + 1

/-- How far a claimant stands after the rotation pointer in that cycle: 1, 2, or 3 for the one the pointer names. -/
def Claimant.after (pointer c : Claimant) : Nat := (c.place + 2 - pointer.place) % 3 + 1

/-- The handle in the fields of a kind that names a record by handle (R41), when the fields pass check 4. -/
def ReqKind.handleIn (k : ReqKind) (o : Byte) (body : List Byte) : Option Handle :=
  match k with
  | .read | .cancelClaim | .revoke | .restore | .watch | .unwatch => (parseHandle 0 o body).map (·.1)
  | .retire | .release | .unstage => (parseHandle optGuard o body).map (·.1)
  | .claim => (parseHandle (optWait ||| optGuard) o body).map (·.1)
  | .stage => (parseStage o body).map (·.1)
  | .tune => (parseTune o body).map (·.handle)
  | .bind => (parseBind o body).map (·.2)
  | .attach | .detach | .keepalive | .queryAgent | .restart | .setRights | .create | .lookup | .enumerate | .apply
  | .setGroup | .queryGroup | .fetchAttention | .unbind | .setPark | .queryChannel | .linkResume => none

/-- The revision guard a request of a kind that accepts one carries (R40). -/
def ReqKind.guardIn (k : ReqKind) (o : Byte) (body : List Byte) : Option (BitVec 16) :=
  match k with
  | .retire | .release | .unstage => (parseHandle optGuard o body).bind (·.2)
  | .claim => (parseHandle (optWait ||| optGuard) o body).bind (·.2)
  | .stage => (parseStage o body).bind (·.2.2)
  | .tune => (parseTune o body).bind (·.guard)
  | .read | .cancelClaim | .revoke | .restore | .watch | .unwatch | .bind | .attach | .detach | .keepalive
  | .queryAgent | .restart | .setRights | .create | .lookup | .enumerate | .apply | .setGroup | .queryGroup
  | .fetchAttention | .unbind | .setPark | .queryChannel | .linkResume => none

/-- The option bits a kind accepts (Table 11-1). -/
def ReqKind.optionsAccepted : ReqKind → Byte
  | .create => 0x01
  | .claim => 0x82
  | .retire | .release | .stage | .unstage | .tune => 0x80
  | .attach | .detach | .keepalive | .queryAgent | .restart | .setRights | .lookup | .read | .enumerate | .cancelClaim
  | .revoke | .restore | .apply | .setGroup | .queryGroup | .watch | .unwatch | .fetchAttention | .bind | .unbind
  | .setPark | .queryChannel | .linkResume => 0x00

/-- The bytes a kind's fields take; those of TUNE follow its presence mask, the third byte (R178, Table 11-1). -/
def ReqKind.fieldBytes (k : ReqKind) (body : List Byte) : Nat :=
  match k with
  | .detach | .keepalive | .restart | .fetchAttention | .linkResume => 0
  | .queryAgent | .apply | .queryGroup | .unbind | .queryChannel => 1
  | .attach | .retire | .lookup | .read | .enumerate | .claim | .release | .cancelClaim | .revoke | .restore | .unstage
  | .watch | .unwatch => 2
  | .setRights | .bind | .setPark => 3
  | .stage => 4
  | .setGroup => 6
  | .create => 13
  | .tune =>
    let part : Nat → Nat → Nat := fun bit bytes => if (body.getD 2 0).getLsbD bit then bytes else 0
    3 + part 0 2 + part 1 2 + part 2 2 + part 3 1 + part 4 1

/-- The values a kind's fields can take, read off the body (R40, R179); `a` is the sender. -/
def ReqKind.ValuesFit (k : ReqKind) (a : Agent) (body : List Byte) : Prop :=
  let byte : Nat → Nat := fun n => (body.getD n 0).toNat
  let word : Nat → Nat := fun n => byte n * 256 + byte (n + 1)
  match k with
  | .attach => (10 ≤ word 0 ∧ word 0 ≤ 60000) ∨ (word 0 = 0 ∧ a = 0)
  | .queryAgent | .queryGroup => byte 0 < 8
  | .setRights => 1 ≤ byte 0 ∧ byte 0 < 8 ∧ byte 1 < 8 ∧ byte 2 < 128
  | .create => word 0 ≠ 0 ∧ byte 2 < 8 ∧ byte 3 < 8 ∧ (wordAt body 4).toInt ≤ (wordAt body 6).toInt ∧ byte 12 < 3
  | .lookup => word 0 ≠ 0
  | .tune =>
    let mask := body.getD 2 0
    let start : Nat := 3 + (if mask.getLsbD 0 then 4 else 0) + (if mask.getLsbD 2 then 2 else 0)
    1 ≤ mask.toNat ∧ mask.toNat < 32 ∧ mask.getLsbD 0 = mask.getLsbD 1
      ∧ (mask.getLsbD 3 = true → byte start < 3)
      ∧ (mask.getLsbD 4 = true → byte (start + if mask.getLsbD 3 then 1 else 0) < 8)
  | .apply => byte 0 ≠ 0
  | .setGroup => byte 0 < 8 ∧ byte 1 < 4 ∧ byte 2 < 4 ∧ 1 ≤ word 3 ∧ word 3 ≤ 60000
  | .bind | .unbind | .setPark | .queryChannel => byte 0 < 32
  | .detach | .keepalive | .restart | .fetchAttention | .linkResume | .retire | .read | .enumerate | .claim | .release
  | .cancelClaim | .revoke | .restore | .stage | .unstage | .watch | .unwatch => True

/-- What check 4 asks of a request (the cases of R179): its options are the kind's, the bytes after the options byte
number what the kind, the guard and the mask of a TUNE call for, and the values lie in their ranges. -/
def ReqKind.FieldsFit (k : ReqKind) (a : Agent) (o : Byte) (body : List Byte) : Prop :=
  o &&& ~~~k.optionsAccepted = 0 ∧ body.length = k.fieldBytes body + (if o.getLsbD 7 then 2 else 0) ∧ k.ValuesFit a body

/-- The class right a kind that names a record by handle needs, if it needs one (Table 2-1, R42). -/
def ReqKind.rightNeeded : ReqKind → Option Right
  | .read => some .read
  | .watch => some .watch
  | .claim => some .claim
  | .stage | .unstage => some .stage
  | .tune => some .tune
  | .retire => some .retire
  | .attach | .detach | .keepalive | .queryAgent | .restart | .setRights | .create | .lookup | .enumerate | .release
  | .cancelClaim | .revoke | .restore | .apply | .setGroup | .queryGroup | .unwatch | .fetchAttention | .bind
  | .unbind | .setPark | .queryChannel | .linkResume => none

/-- Check 6 of a kind that names a record by handle: agent `a` holds the right the kind needs in the record's class. -/
def State.RightPasses (s : State) (k : ReqKind) (a : Agent) (r : Record) : Prop :=
  ∀ n, k.rightNeeded = some n → s.holds a r.cls n = true

/-- Check 7 as the table of R43 gives it: `a` is the owner; or agent 0, for RETIRE and TUNE always, and for STAGE and
UNSTAGE on a record that is OPEN or LAPSED. The other kinds have no check 7. -/
def Record.OwnershipPasses (r : Record) (k : ReqKind) (a : Agent) : Prop :=
  match k with
  | .retire | .tune => r.state = .held a ∨ a = 0
  | .release => r.state = .held a
  | .stage | .unstage => r.state = .held a ∨ (a = 0 ∧ (r.state = .opened ∨ r.state = .lapsed))
  | .read | .cancelClaim | .revoke | .restore | .watch | .unwatch | .bind | .attach | .detach | .keepalive
  | .queryAgent | .restart | .setRights | .create | .lookup | .enumerate | .claim | .apply | .setGroup | .queryGroup
  | .fetchAttention | .unbind | .setPark | .queryChannel | .linkResume => True

/-- The ticks an agent's countdown holds: none left when it is stopped. -/
def State.ticksLeft (s : State) (a : Agent) : Nat := (s.row a).countdown.getD 0

/-- No timer stands at zero with its expiry still to be taken (log 5). -/
def State.ExpiriesTaken (s : State) : Prop :=
  (∀ a, (s.row a).countdown ≠ some 0) ∧ (∀ g, (s.group g).trigger = .period → (s.group g).counter ≠ some 0)
    ∧ ∀ f n, s.link ≠ .awaitAck f n 0

end Sys2Proof.Machine
end

