-- ==== Sys2Proof/Certificates/Slice0/Obligations.lean ====
section
/-! DEFINITION. The statements for the provers. A request statement's hypotheses say that the arbiter grants the
port, that the request passes the checks before the rule stated, and what its fields are; its conclusion is the next
state in full: the renewed state, the rule's writes, and the response delivered. -/
section
open Sys2Proof Sys2Proof.Machine

/-! ### The machine as a whole -/

/-- A step takes the command at the front of the queue and runs it on the state with the queue's rest; on an empty
queue the block idles (the queue and the idling are the model's: log 1). -/
def Obligations.StepRunsFrontCommand : Prop :=
  (∀ (c : Instr) (cs : List Instr) (s : State), s.pending = c :: cs → step s = exec c { s with pending := cs })
    ∧ ∀ s : State, s.pending = [] → step s = .next s

/-- No command stops the part: every command answers a next state, in every state, and leaves the commands waiting. The
manual gives no request and no transaction a stop; that a command without an occasion changes nothing (log 2), that the
meanings answer in states its laws exclude (log 16), and the queue (log 1) are the model's. -/
def Obligations.EveryCommandCompletes : Prop :=
  ∀ (c : Instr) (s : State), ∃ t : State, exec c s = .next t ∧ t.pending = s.pending

/-- The laws of the manual hold of the state after reset. -/
def Obligations.LawsHoldAtReset : Prop := State.reset.Laws

/-- Every step keeps the laws of the manual: R2, R6, R10, R12, R46, R64, R69, R71, R106, R125, R130, R139, R140, R147,
R158, and the quiet before READY. -/
def Obligations.LawsKeptByEveryStep : Prop := ∀ s t : State, s.Laws → step s = .next t → t.Laws

/-- The law of the ports (R158), with the engine's side of it, is kept by every step. -/
def Obligations.PortLawKeptByEveryStep : Prop := ∀ s t : State, s.PortLaw → step s = .next t → t.PortLaw

/-- The law of the limits (R2) is kept by every step. -/
def Obligations.LimitsLawKeptByEveryStep : Prop := ∀ s t : State, s.LimitsLaw → step s = .next t → t.LimitsLaw

/-- The law of the claim queues and of the claim-entry pool (R69, R70) is kept by every step. -/
def Obligations.QueueLawKeptByEveryStep : Prop := ∀ s t : State, s.QueueLaw → step s = .next t → t.QueueLaw

/-- Under the laws of the store, from READY on the free-slot list and the key index together have 256 entries (R12). -/
def Obligations.FreeListAndIndexFillTheStore : Prop :=
  ∀ s : State, s.StoreLaw → s.phase = .ready → s.freeList.length + s.keyIndex.length = 256

/-- Only SET_RIGHTS and power-on reset change a rights set (R30, R32). -/
def Obligations.RightsChangedBySetRightsAlone : Prop :=
  ∀ (c : Instr) (s t : State), exec c s = .next t →
    t.rights = s.rights ∨ c = .nrstAssert ∨ ∃ p x, c = .setRights p x

/-- Only a CREATE and power-on reset change an incarnation, and a CREATE advances that of the slot at the head of the
free-slot list by one (R7, R16). -/
def Obligations.IncarnationAdvancesAtCreateAlone : Prop :=
  ∀ (c : Instr) (s t : State) (i : SlotNo), exec c s = .next t →
    (t.slots.get i).inc = (s.slots.get i).inc ∨ c = .nrstAssert
      ∨ ((∃ p x, c = .create p x) ∧ s.freeList.head? = some i ∧ (t.slots.get i).inc = (s.slots.get i).inc + 1)

/-- The arbiter grants the free engine, from READY on, to the claimant with work that comes first after the pointer in
the cycle INTERNAL, P0, P1; INTERNAL has work while a lapse, a sweep or an apply is outstanding, a port while it is
SUBMITTED (R163). -/
def Obligations.ArbiterGrantsNextInCycle : Prop :=
  ∀ s : State,
    (∀ c, s.grant = some c ↔
      s.phase = .ready ∧ s.engine = .free ∧ s.hasWork c = true
        ∧ ∀ d, s.hasWork d = true → s.pointer.after c ≤ s.pointer.after d)
      ∧ (s.hasWork .internal = true ↔
          (∃ a, (s.row a).expired = true) ∨ s.sweep.isSome = true ∨ ∃ g, (s.group g).pending = true)
      ∧ ∀ p, s.hasWork (.port p) = true ↔ ∃ f, (s.port p).request = .submitted f

/-- The two halves of a request (log 3): the take leaves the port TAKEN with the engine busy, and the delivery after
it gives the state that the whole request gives (R164, R165). -/
def Obligations.TakeThenFinishIsWhole : Prop :=
  ∀ (p : PortId) (f : List Byte) (s : State),
    (∀ k : ReqKind, s.Offers p f k.code →
      ∃ t : State, exec (requestInstr k p .take) s = .next t ∧ (t.port p).request = .taken ∧ t.engine ≠ .free
        ∧ exec (requestInstr k p .finish) t = exec (requestInstr k p .whole) s)
      ∧ ∀ b : Byte, s.Offers p f b → codeAssigned b = false →
          ∃ t : State, exec (.unknownKind p .take) s = .next t ∧ (t.port p).request = .taken ∧ t.engine ≠ .free
            ∧ exec (.unknownKind p .finish) t = exec (.unknownKind p .whole) s

/-- A RESET_PORT between the take and the delivery orphans the request, whether or not its kind is assigned: its effects
stand, the response is discarded, and the port ends EMPTY with the mark clear and LAST PORT_RESET (R165, R170, R171; the
cut is the model's: log 3). -/
def Obligations.OrphanedResponseIsDiscarded : Prop :=
  ∀ (p : PortId) (f : List Byte) (bits : Nat) (s t : State), s.CanTransact p → s.PortLaw →
    let discarded : Instr → Prop := fun finish => runCommands [.resetPort p bits, finish] t =
      .next { t.setPort p { request := .empty, response := none, orphan := false, last := .portReset, txn := .idle,
                            sdo := List.replicate (bits / 8 + 1) 0xFF } with engine := .free }
    (∀ k : ReqKind, s.Offers p f k.code → exec (requestInstr k p .take) s = .next t →
        discarded (requestInstr k p .finish))
      ∧ ∀ b : Byte, s.Offers p f b → (∀ k : ReqKind, k.code ≠ b) → exec (.unknownKind p .take) s = .next t →
          discarded (.unknownKind p .finish)

/-! ### Admission -/

/-- A request whose kind code Table 11-1 does not assign is refused UNKNOWN_KIND, without renewal, whatever its agent,
its epoch and the sessions (R37). -/
def Obligations.UnknownKindRefused : Prop :=
  ∀ (p : PortId) (f : List Byte) (b : Byte) (s : State), s.Offers p f b → (∀ k : ReqKind, k.code ≠ b) →
    exec (.unknownKind p .whole) s = .next ((s.takeFrom p).answered p f .unknownKind [])

/-- The twelve supervisor-only kinds are refused NO_RIGHT from an agent other than 0, after the renewal and whatever
the fields and the rights (R35). -/
def Obligations.SupervisorOnlyKindsRefused : Prop :=
  ∀ (k : ReqKind) (p : PortId) (f : List Byte) (a : Agent) (s : State),
    k ∈ [ReqKind.setRights, .setGroup, .bind, .unbind, .setPark, .revoke, .restore, .linkResume, .restart, .queryAgent,
         .queryGroup, .queryChannel] →
    s.Offers p f k.code → (frameAgent f).toNat = a.val → a ≠ 0 → (s.row a).state = .attached →
    (s.row a).epoch = frameEpoch f → (s.row a).port = some p →
    exec (requestInstr k p .whole) s = .next ((s.begun p a).answered p f .noRight [])

/-- The tests of check 2 in their order, each refusal without renewal: agent field, state, epoch, port; ATTACH meets
the first alone (R36, R38, R39). -/
def Obligations.SessionChecksInOrder : Prop :=
  ∀ (k : ReqKind) (p : PortId) (f : List Byte) (s : State), s.Offers p f k.code →
    (8 ≤ (frameAgent f).toNat →
        exec (requestInstr k p .whole) s = .next ((s.takeFrom p).answered p f .badField []))
      ∧ ∀ a : Agent, (frameAgent f).toNat = a.val → k ≠ .attach →
          ((s.row a).state = .detached →
              exec (requestInstr k p .whole) s = .next ((s.takeFrom p).answered p f .notAttached []))
            ∧ ((s.row a).state = .lost →
                exec (requestInstr k p .whole) s = .next ((s.takeFrom p).answered p f .sessionLost []))
            ∧ ((s.row a).state = .attached → frameEpoch f ≠ (s.row a).epoch →
                exec (requestInstr k p .whole) s = .next ((s.takeFrom p).answered p f .staleSession []))
            ∧ ((s.row a).state = .attached → frameEpoch f = (s.row a).epoch → (s.row a).port ≠ some p →
                exec (requestInstr k p .whole) s = .next ((s.takeFrom p).answered p f .wrongPort []))

/-- A refused request changes nothing but the renewal, the arbiter's pointer and the port that carried it: the response
that the engine holds after the take names the outcome, and with an outcome other than DONE and QUEUED everything but the
engine stands as after the take or the renewal, which the delivery then follows (R36; the cut of a request into take and
delivery, where its response shows, is the model's: log 3). -/
def Obligations.RefusedRequestWritesNothing : Prop :=
  ∀ (k : ReqKind) (p : PortId) (f : List Byte) (s : State), s.Offers p f k.code →
    ∃ (base : State) (o : ReqOutcome) (body : List Byte),
      exec (requestInstr k p .take) s =
          .next { base with engine := .busy p k.code (responseFrame (frameTag f) o body) }
        ∧ exec (requestInstr k p .whole) s = .next (base.answered p f o body)
        ∧ base.ports = (s.takeFrom p).ports ∧ base.engine = .free
        ∧ (o ≠ .done → o ≠ .queued →
            base = s.takeFrom p ∨ ∃ a : Agent, (frameAgent f).toNat = a.val ∧ base = s.begun p a)

/-- The kinds that name a record by handle: a handle that names no active record is refused STALE_HANDLE; then the
right, the ownership and the guard are tested in this order (R8, R41 to R44). -/
def Obligations.HandleChecksInOrder : Prop :=
  ∀ (k : ReqKind) (p : PortId) (f : List Byte) (a : Agent) (s : State) (h : Handle),
    s.Admits p k f a → k.handleIn (frameOptions f) (frameBody f) = some h →
    (s.record h.slot = none ∨ (s.slots.get h.slot).inc ≠ h.inc →
        exec (requestInstr k p .whole) s = .next ((s.begun p a).answered p f .staleHandle []))
      ∧ ∀ r, s.Names h r →
          (¬ s.RightPasses k a r →
              exec (requestInstr k p .whole) s = .next ((s.begun p a).answered p f .noRight []))
            ∧ (s.RightPasses k a r → ¬ r.OwnershipPasses k a →
                exec (requestInstr k p .whole) s = .next ((s.begun p a).answered p f .notOwner []))
            ∧ (s.RightPasses k a r → r.OwnershipPasses k a →
                ∀ g, k.guardIn (frameOptions f) (frameBody f) = some g → g ≠ r.revision →
                  exec (requestInstr k p .whole) s =
                    .next ((s.begun p a).answered p f .revisionMismatch
                      ([byteOf h.slot.val, h.inc] ++ bytes16 r.revision)))

/-- Agent 0 passes every class-right check and every record of the ENUMERATE filter, is reported with all seven rights
in each of the eight classes, and is refused as the target of SET_RIGHTS (R31). -/
def Obligations.SupervisorHoldsEveryRight : Prop :=
  (∀ (s : State) (c : ClassNo) (x : Right) (k : Answer), s.holds 0 c x = true ∧ needRight s 0 c x k = k)
    ∧ (∀ (s : State) (after k : Key) (i : SlotNo) (r : Record), (k, i) ∈ s.keyIndex → after.toNat < k.toNat →
        s.record i = some r → (s.handleOf i, r) ∈ s.readableAfter 0 after)
    ∧ (∀ s : State, ∃ front, s.agentReport 0 = front ++ List.replicate 8 0x7F)
    ∧ ∀ (s : State) (p : PortId) (f : List Byte) (c x : Byte), s.Admits p .setRights f 0 → frameBody f = [0, c, x] →
        exec (.setRights p .whole) s = .next ((s.begun p 0).answered p f .badField [])

/-- How a request frame is read: the kind codes of Table 11-1, the header, and for each kind the body that spells given
fields, two-byte fields with the most significant byte first, the guard after the fields exactly when bit 7 of the
options is set; a reader answers those fields on that body and on no other. And check 4: a request past checks 1 to 3
whose options, byte count or field values are not those its kind calls for is refused BAD_FIELD, without a body (R40,
R54, R178, R179). -/
def Obligations.FieldsReadFromTheBody : Prop :=
  let two : BitVec 16 → List Byte := fun v => [v.extractLsb' 8 8, v.extractLsb' 0 8]
  let one : Nat → Byte := fun n => BitVec.ofNat 8 n
  let handle : Handle → List Byte := fun h => [one h.slot.val, h.inc]
  let policy : Policy → Byte := fun x => if x = .hold then 0 else if x = .safeNow then 1 else 2
  let trigger : Trigger → Byte := fun x =>
    if x = .onStage then 0 else if x = .strobe then 1 else if x = .period then 2 else 3
  let guarded : Byte → List Byte → List Byte → Option (BitVec 16) → Prop := fun o body fields g =>
    (o.getLsbD 7 = false ∧ g = none ∧ body = fields) ∨ (o.getLsbD 7 = true ∧ ∃ w, g = some w ∧ body = fields ++ two w)
  ([.attach, .detach, .keepalive, .queryAgent, .restart, .setRights, .create, .retire, .lookup, .read, .enumerate, .claim,
      .release, .cancelClaim, .revoke, .restore, .stage, .unstage, .tune, .apply, .setGroup, .queryGroup, .watch, .unwatch,
      .fetchAttention, .bind, .unbind, .setPark, .queryChannel, .linkResume].map ReqKind.code =
    [0x01, 0x02, 0x03, 0x04, 0x05, 0x06, 0x10, 0x11, 0x12, 0x13, 0x14, 0x20, 0x21, 0x22, 0x23, 0x24, 0x30, 0x31, 0x32,
      0x40, 0x41, 0x42, 0x50, 0x51, 0x52, 0x60, 0x61, 0x62, 0x63, 0x64])
    ∧ (∀ (n a e t k o c : Byte) (body : List Byte),
        let f := [n, a, e, t, k, o] ++ body ++ [c]
        frameAgent f = a ∧ frameEpoch f = e ∧ frameTag f = t ∧ frameKind f = k ∧ frameOptions f = o ∧ frameBody f = body)
    ∧ (∀ (o : Byte) (body : List Byte),
        (parseNone o body = some () ↔ o = 0 ∧ body = [])
          ∧ (∀ a n, parseAttach a o body = some n ↔
              o = 0 ∧ ((10 ≤ n ∧ n ≤ 60000) ∨ (n = 0 ∧ a = 0)) ∧ body = two (BitVec.ofNat 16 n))
          ∧ (∀ a, parseAgent o body = some a ↔ o = 0 ∧ body = [one a.val])
          ∧ (∀ a c rs, parseSetRights o body = some (a, c, rs) ↔ o = 0 ∧ a ≠ 0 ∧
              ∃ x : Byte, x.getLsbD 7 = false ∧ (∀ n : Fin 7, rs.mem n = x.getLsbD n.val)
                ∧ body = [one a.val, one c.val, x])
          ∧ (∀ q, parseCreate o body = some q ↔ o = (if q.unowned then 0x01 else 0x00) ∧ q.key ≠ 0
              ∧ q.min.toInt ≤ q.max.toInt ∧ body = two q.key ++ [one q.cls.val, one q.group.val] ++ two q.min
                ++ two q.max ++ two q.live ++ two q.safe ++ [policy q.policy])
          ∧ (∀ k, parseKey o body = some k ↔ o = 0 ∧ k ≠ 0 ∧ body = two k)
          ∧ (∀ k, parseAfterKey o body = some k ↔ o = 0 ∧ body = two k)
          ∧ (∀ h g, parseHandle 0 o body = some (h, g) ↔ o = 0 ∧ g = none ∧ body = handle h)
          ∧ (∀ h g, parseHandle optGuard o body = some (h, g) ↔ (o = 0 ∨ o = 0x80) ∧ guarded o body (handle h) g)
          ∧ (∀ h g, parseHandle (optWait ||| optGuard) o body = some (h, g) ↔
              (o = 0 ∨ o = 0x02 ∨ o = 0x80 ∨ o = 0x82) ∧ guarded o body (handle h) g)
          ∧ (∀ h v g, parseStage o body = some (h, v, g) ↔
              (o = 0 ∨ o = 0x80) ∧ guarded o body (handle h ++ two v) g)
          ∧ (∀ q, parseTune o body = some q ↔
              let mask := (if q.limits.isSome then 3 else 0) + (if q.safe.isSome then 4 else 0)
                + (if q.policy.isSome then 8 else 0) + (if q.group.isSome then 16 else 0)
              (o = 0 ∨ o = 0x80) ∧ mask ≠ 0
                ∧ guarded o body (handle q.handle ++ [one mask] ++ (q.limits.toList.flatMap fun l => two l.1 ++ two l.2)
                    ++ q.safe.toList.flatMap two ++ q.policy.toList.map policy ++ q.group.toList.map fun g => one g.val)
                  q.guard)
          ∧ (∀ gs, parseGroupSet o body = some gs ↔
              o = 0 ∧ ∃ x : Byte, x ≠ 0 ∧ (∀ g, gs.mem g = x.getLsbD g.val) ∧ body = [x])
          ∧ (∀ q, parseSetGroup o body = some q ↔ o = 0 ∧ 1 ≤ q.period ∧ q.period ≤ 60000 ∧
              ∃ x : Byte, (∀ a, q.applyAgents.mem a = x.getLsbD a.val)
                ∧ body = [one q.group.val, trigger q.trigger, one q.strobe.val] ++ two (BitVec.ofNat 16 q.period) ++ [x])
          ∧ (∀ g, parseGroup o body = some g ↔ o = 0 ∧ body = [one g.val])
          ∧ (∀ c h, parseBind o body = some (c, h) ↔ o = 0 ∧ body = one c.val :: handle h)
          ∧ (∀ c, parseChannel o body = some c ↔ o = 0 ∧ body = [one c.val])
          ∧ ∀ c v, parseSetPark o body = some (c, v) ↔ o = 0 ∧ body = one c.val :: two v)
    ∧ ∀ (k : ReqKind) (p : PortId) (f : List Byte) (a : Agent) (s : State),
        ¬ k.FieldsFit a (frameOptions f) (frameBody f) →
        (s.Admits p k f a → exec (requestInstr k p .whole) s = .next ((s.begun p a).answered p f .badField []))
          ∧ (k = .attach → s.Offers p f k.code → (frameAgent f).toNat = a.val →
              exec (.attach p .whole) s = .next ((s.takeFrom p).answered p f .badField []))

/-! ### Port transactions (chapter 9) -/

/-- The deassertion of nCS ending a SUBMIT, whether its first byte ended just before or earlier, with other events
between: READY, then the three tests of the frame in their order, then EMPTY; the first that fails gives LAST and the
frame is discarded, else the port is SUBMITTED with LAST ACCEPTED. Nothing else of the part changes (R159, R161, R162).
While nRST is low the port does not answer (R173). That one command stands for the whole transaction or for its end is
the model's (log 4), and so are the free bytes of SDO while nRST is low (log 8) and the counter of their draws (log
12). -/
def Obligations.SubmitTestedInOrder : Prop :=
  ∀ (p : PortId) (frame : List Byte) (extra : Fin 8) (s : State),
    (s.phase = .inReset → s.Unanswered p (.submit p frame extra))
      ∧ (s.CanEnd p .submit →
        ∃ request last,
          exec (.submit p frame extra) s = .next (s.setPort p { (s.port p) with
              request := request, last := last, txn := .idle, sdo := List.replicate (frame.length + 1) 0xFF })
            ∧ (last ≠ .accepted → request = (s.port p).request)
            ∧ (s.phase ≠ .ready → last = .notReady)
            ∧ (s.phase = .ready → extra ≠ 0 → last = .frameIncompleteByte)
            ∧ (s.phase = .ready → extra = 0 →
                (frame.length < 7 ∨ (frame.getD 0 0).toNat ≠ frame.length → last = .frameLength)
                  ∧ (7 ≤ frame.length → (frame.getD 0 0).toNat = frame.length →
                      (crc8 frame.dropLast ≠ frame.getLast?.getD 0 → last = .frameCrc)
                        ∧ (crc8 frame.dropLast = frame.getLast?.getD 0 →
                            ((s.port p).cond ≠ .empty → last = .occupied)
                              ∧ ((s.port p).cond = .empty → last = .accepted ∧ request = .submitted frame)))))

/-- The deassertion of nCS ending a COLLECT: a waiting response is shifted out after the first byte and removed when
at least its length was clocked, else kept; with none waiting a single 0x00 is shifted out (R166, R167). While nRST is
low the port does not answer (R173). That one command stands for the whole transaction is the model's (log 4), and so are
the free bytes of SDO while nRST is low (log 8) and the counter of their draws (log 12). -/
def Obligations.CollectGivesTheResponse : Prop :=
  ∀ (p : PortId) (bits : Nat) (s : State),
    (s.phase = .inReset → s.Unanswered p (.collect p bits))
      ∧ (s.CanTransact p →
        (∀ resp, (s.port p).request = .empty → (s.port p).response = some resp →
            (resp.length ≤ bits / 8 →
                exec (.collect p bits) s = .next (s.setPort p { (s.port p) with
                    response := none, last := .collected, txn := .idle
                    sdo := 0xFF :: resp ++ List.replicate (bits / 8 - resp.length) 0xFF }))
              ∧ (bits / 8 < resp.length →
                  exec (.collect p bits) s = .next (s.setPort p { (s.port p) with
                    last := .collectAborted, txn := .idle, sdo := 0xFF :: resp.take (bits / 8) })))
          ∧ ((s.port p).request ≠ .empty ∨ (s.port p).response = none →
              exec (.collect p bits) s = .next (s.setPort p { (s.port p) with
                last := .noResponse, txn := .idle
                sdo := 0xFF :: (0x00 :: List.replicate (bits / 8 - 1) 0xFF).take (bits / 8) })))

/-- A STATUS shifts out the port status byte, the LAST byte and 0xFF, and changes nothing else; the bits of the status
byte are READY, REQ_SUBMITTED, REQ_TAKEN, RESP_WAITING, ATTN and ORPHAN, and the LAST byte holds the code of
R177's table (R137, R168, R177). While nRST is low the port does not answer (R173). That one command stands for the
whole transaction is the model's (log 4), and so are the free bytes of SDO while nRST is low (log 8) and the counter of
their draws (log 12). -/
def Obligations.StatusReportsThePort : Prop :=
  ([.none, .accepted, .occupied, .notReady, .collected, .collectAborted, .noResponse, .cancelled, .cancelTooLate,
      .cancelNothing, .portReset, .unknownTransaction, .frameIncompleteByte, .frameLength, .frameCrc].map LastCode.code =
    [0x00, 0x01, 0x02, 0x03, 0x04, 0x05, 0x06, 0x07, 0x08, 0x09, 0x0A, 0x0B, 0x10, 0x11, 0x12]) ∧
  (∀ (p : PortId) (bits : Nat) (s : State), s.phase = .inReset → s.Unanswered p (.status p bits)) ∧
  ∀ (p : PortId) (bits : Nat) (s : State), s.CanTransact p → s.PortLaw →
    ∃ b : Byte,
      exec (.status p bits) s = .next (s.setPort p { (s.port p) with
          txn := .idle
          sdo := 0xFF :: (b :: (s.port p).last.code :: List.replicate (bits / 8 - 2) 0xFF).take (bits / 8) })
        ∧ (b.getLsbD 7 = true ↔ s.phase = .ready)
        ∧ (b.getLsbD 6 = true ↔ ∃ f, (s.port p).request = .submitted f)
        ∧ (b.getLsbD 5 = true ↔ (s.port p).request = .taken)
        ∧ (b.getLsbD 4 = true ↔ (s.port p).response.isSome = true)
        ∧ (b.getLsbD 3 = true ↔ (s.port p).response.isSome = true ∨ ∃ a : Agent,
            (s.row a).state = .attached ∧ (s.row a).port = some p
              ∧ ((s.row a).attention ≠ [] ∨ (s.row a).overflow = true
                  ∨ (a = 0 ∧ (s.linkStalled = true ∨ ∃ n, s.lostAgents.mem n = true))))
        ∧ (b.getLsbD 2 = true ↔ (s.port p).orphan = true)
        ∧ b.getLsbD 1 = false ∧ b.getLsbD 0 = false

/-- CANCEL and RESET_PORT act by the port's condition at the deassertion of nCS, whether the first byte ended just before
or earlier, with a take or a delivery between (R169 to R171), in a state with the law of the ports. While nRST is low the
port does not answer (R173). That one command stands for the whole transaction or for its end is the model's (log 4), and
so are the free bytes of SDO while nRST is low (log 8) and the counter of their draws (log 12). -/
def Obligations.CancelAndResetPortByCondition : Prop :=
  ∀ (p : PortId) (bits : Nat) (s : State),
    (s.phase = .inReset → s.Unanswered p (.cancel p bits) ∧ s.Unanswered p (.resetPort p bits))
      ∧ (s.PortLaw →
        let q : Port := { (s.port p) with txn := .idle, sdo := List.replicate (bits / 8 + 1) 0xFF }
        let cancel : Port → Prop := fun r => s.CanEnd p .cancel → exec (.cancel p bits) s = .next (s.setPort p r)
        let reset : Port → Prop := fun r => s.CanEnd p .resetPort → exec (.resetPort p bits) s = .next (s.setPort p r)
        (∀ f, q.request = .submitted f →
            cancel { q with request := .empty, last := .cancelled } ∧ reset { q with request := .empty, last := .portReset })
          ∧ (q.request = .taken →
              cancel { q with last := .cancelTooLate } ∧ reset { q with orphan := true, last := .portReset })
          ∧ (q.request = .empty → q.response ≠ none →
              cancel { q with last := .cancelTooLate } ∧ reset { q with response := none, last := .portReset })
          ∧ (q.request = .empty → q.response = none →
              cancel { q with last := .cancelNothing } ∧ reset { q with last := .portReset }))

/-- A transaction cut at the end of its first byte acts as the whole: each of the five kinds, and an unknown one, which
gives LAST UNKNOWN_TRANSACTION. END_OF_FIRST_BYTE settles the kind, and what a COLLECT or a STATUS shifts out, and nothing
else of the part; a take or a delivery that falls before the deassertion, of any request, changes neither, and the
deassertion of a settled COLLECT, STATUS or unknown kind acts on what was settled (SubmitTestedInOrder and
CancelAndResetPortByCondition say so of the other kinds). Fewer than eight edges have no effect. An assertion seen low at
the release of nRST is ignored, whatever is clocked, until nCS goes high. While nRST is low no transaction is answered (R159, R166 to R168, R173). The cut into two
commands is the model's (log 4), and so is that the record of SDO stays as it was through fewer than eight edges, which
make no whole byte, and through an ignored assertion, of whose SDO the manual says nothing (logs 4 and 13). What SDO
carries while nRST is low is free (log 8), and the counter of free values drawn is the model's (log 12). -/
def Obligations.FirstByteThenDeassertion : Prop :=
  ∀ (p : PortId) (s : State),
    let known : List Byte := [0xA1, 0xA2, 0xA3, 0xA4, 0xA5]
    let waiting : Option (List Byte) := if (s.port p).request = .empty then (s.port p).response else none
    let noted : Txn → State := fun t => s.setPort p { (s.port p) with txn := t }
    (s.CanTransact p →
        (∀ (first : Byte) (c : Instr),
            ((first = 0xA1 ∧ ∃ frame extra, c = .submit p frame extra) ∨ (first = 0xA2 ∧ ∃ bits, c = .collect p bits)
              ∨ (first = 0xA3 ∧ ∃ bits, c = .status p bits) ∨ (first = 0xA4 ∧ ∃ bits, c = .cancel p bits)
              ∨ (first = 0xA5 ∧ ∃ bits, c = .resetPort p bits)
              ∨ (first ∉ known ∧ ∃ bits, c = .unknownTransaction p first bits)) →
            runCommands [.endOfFirstByte p first, c] s = exec c s)
          ∧ exec (.endOfFirstByte p 0xA1) s = .next (noted .submit)
          ∧ exec (.endOfFirstByte p 0xA2) s = .next (noted (.collect waiting))
          ∧ exec (.endOfFirstByte p 0xA3) s = .next (noted (.status (s.statusByte p) (s.port p).last.code))
          ∧ exec (.endOfFirstByte p 0xA4) s = .next (noted .cancel)
          ∧ exec (.endOfFirstByte p 0xA5) s = .next (noted .resetPort)
          ∧ (∀ (first : Byte) (bits : Nat), first ∉ known →
              exec (.endOfFirstByte p first) s = .next (noted .unknown)
                ∧ exec (.unknownTransaction p first bits) s = .next (s.setPort p { (s.port p) with
                    last := .unknownTransaction, txn := .idle, sdo := List.replicate (bits / 8 + 1) 0xFF })))
      ∧ (∀ bits : Nat, s.phase ≠ .inReset →
          (∀ a b, (s.port p).txn = .status a b →
              exec (.status p bits) s = .next (s.setPort p { (s.port p) with
                txn := .idle, sdo := 0xFF :: (a :: b :: List.replicate (bits / 8 - 2) 0xFF).take (bits / 8) }))
            ∧ (∀ resp, (s.port p).txn = .collect (some resp) →
              exec (.collect p bits) s = .next (s.setPort p (if resp.length ≤ bits / 8 then
                { (s.port p) with
                  response := none, last := .collected, txn := .idle
                  sdo := 0xFF :: resp ++ List.replicate (bits / 8 - resp.length) 0xFF }
              else { (s.port p) with last := .collectAborted, txn := .idle, sdo := 0xFF :: resp.take (bits / 8) })))
            ∧ ((s.port p).txn = .collect none →
              exec (.collect p bits) s = .next (s.setPort p { (s.port p) with
                last := .noResponse, txn := .idle
                sdo := 0xFF :: (0x00 :: List.replicate (bits / 8 - 1) 0xFF).take (bits / 8) }))
            ∧ ((s.port p).txn = .unknown → ∀ first : Byte, first ∉ known →
              exec (.unknownTransaction p first bits) s = .next (s.setPort p { (s.port p) with
                last := .unknownTransaction, txn := .idle, sdo := List.replicate (bits / 8 + 1) 0xFF })))
      ∧ (∀ (q : PortId) (x : Extent) (c : Instr) (t : State), (c = .unknownKind q x ∨ ∃ k, c = requestInstr k q x) →
          exec c s = .next t → (t.port p).txn = (s.port p).txn)
      ∧ (s.phase = .inReset → ∀ (first : Byte) (bits : Nat), exec (.endOfFirstByte p first) s = .next s
          ∧ (first ∉ known → s.Unanswered p (.unknownTransaction p first bits)))
      ∧ (∀ edges, exec (.noCompleteFirstByte p edges) s = .next s)
      ∧ ((s.port p).txn = .ignored →
          exec (.ignoredAssertionAtRelease p) s = .next (s.setPort p { (s.port p) with txn := .idle })
            ∧ (s.phase ≠ .inReset → ∀ first bits frame extra, exec (.endOfFirstByte p first) s = .next s
                ∧ exec (.submit p frame extra) s = .next s ∧ exec (.collect p bits) s = .next s
                ∧ exec (.status p bits) s = .next s ∧ exec (.cancel p bits) s = .next s
                ∧ exec (.resetPort p bits) s = .next s ∧ exec (.unknownTransaction p first bits) s = .next s))

/-! ### Reset and start-up (chapter 10) -/

/-- The three events of start-up, and what stands once READY has risen from any state (R28, R32, R48, R106, R139,
R154, R157, R163, R173 to R175). That the levels of input pins are operands is the model's (log 7), and so are the
free-slot list before READY (log 6), the draw counter (log 12) and the records of output pins (log 13). -/
def Obligations.StartUpBringsPowerOnValues : Prop :=
  ∀ (s : State) (low0 low1 : Bool) (levels : FinSet 4),
    exec .nrstAssert s = .next { State.reset with freeDraws := s.freeDraws, pending := s.pending }
      ∧ (s.phase = .inReset → exec (.nrstRelease low0 low1) s = .next { s with
            phase := .initialising
            ports := (s.ports.set 0 { (s.port 0) with txn := if low0 then .ignored else .idle }).set 1
              { (s.port 1) with txn := if low1 then .ignored else .idle } })
      ∧ (s.phase = .initialising → exec (.readyRise levels) s = .next { s with
            phase := .ready, freeList := List.finRange 256, applyLevels := levels })
      ∧ ∃ t : State, runCommands [.nrstAssert, .nrstRelease low0 low1, .readyRise levels] s = .next t ∧ t.Laws
          ∧ t.phase = .ready ∧ (∀ i, t.slots.get i = { inc := 0, record := none }) ∧ t.keyIndex = []
          ∧ t.freeList = List.finRange 256 ∧ t.poolFree = 64
          ∧ (∀ a : Agent, a ≠ 0 → ∀ c r, t.holds a c r = false)
          ∧ (∀ a, (t.row a).state = .detached ∧ (t.row a).epoch = 0 ∧ (t.row a).port = none
              ∧ (t.row a).period = none ∧ (t.row a).attention = [] ∧ (t.row a).overflow = false
              ∧ (t.row a).countdown = none ∧ (t.row a).expired = false)
          ∧ t.linkStalled = false ∧ (∀ a, t.lostAgents.mem a = false)
          ∧ (∀ g, (t.group g).trigger = .onStage ∧ (t.group g).strobe = 0 ∧ (t.group g).period = 1000
              ∧ (∀ a, (t.group g).applyAgents.mem a = false) ∧ (t.group g).pending = false
              ∧ (t.group g).counter = none)
          ∧ t.sweep = none ∧ t.applyLevels = levels
          ∧ (∀ c, t.channel c = { binding := none, park := 0, driven := 0, acked := 0 })
          ∧ t.updateQueue = [] ∧ t.link = .idle
          ∧ (∀ p, (t.port p).cond = .empty ∧ (t.port p).last = .none ∧ t.attn p = false)
          ∧ t.pointer = .port 1 ∧ t.engine = .free

/-! ### Time (R49, R51, R109, R151) -/

/-- A tick from READY on, no expiry being left to be taken: every running timer loses one tick, and one that reaches
zero expires within the tick. Before READY a tick has no effect (R49, R51, R109, R151; the tick's two forms are the
model's: log 5). -/
def Obligations.TickCountsAndExpires : Prop :=
  ∀ s : State,
    (∀ e, s.phase ≠ .ready → exec (.tick e) s = .next s)
      ∧ (s.phase = .ready → s.ExpiriesTaken →
          ∃ t : State, exec (.tick .within) s = .next t
            ∧ t = { s with agents := t.agents, groups := t.groups, link := t.link, linkStalled := t.linkStalled }
            ∧ (∀ a, ((s.row a).countdown = none → t.row a = s.row a)
                ∧ ((s.row a).countdown = some 1 → t.row a = { (s.row a) with countdown := none, expired := true })
                ∧ ∀ n, (s.row a).countdown = some (n + 2) → t.row a = { (s.row a) with countdown := some (n + 1) })
            ∧ (∀ g, ((s.group g).counter = none → t.group g = s.group g)
                ∧ ((s.group g).trigger = .period → (s.group g).counter = some 1 →
                    t.group g = { (s.group g) with pending := true, counter := some (s.group g).period })
                ∧ ∀ n, (s.group g).counter = some (n + 2) → t.group g = { (s.group g) with counter := some (n + 1) })
            ∧ (∀ f n, s.link = .awaitAck f n 1 → n < 4 →
                t.link = .sending f (n + 1) ∧ t.linkStalled = s.linkStalled)
            ∧ (∀ f n, s.link = .awaitAck f n 1 → 4 ≤ n →
                t.link = .stalled f ∧ t.linkStalled = (s.linkStalled || (s.row 0).state == .attached))
            ∧ (∀ f n m, s.link = .awaitAck f n (m + 2) →
                t.link = .awaitAck f n (m + 1) ∧ t.linkStalled = s.linkStalled)
            ∧ ((∀ f n m, s.link ≠ .awaitAck f n m) → t.link = s.link ∧ t.linkStalled = s.linkStalled))

/-- The expiries taken as events of their own: each acts on the timer that stands at zero, and a tick with its expiries
apart followed by every expiry is the tick with its expiries within (R51, R109, R151; the cut is the model's: log 5). -/
def Obligations.ExpiriesApartFromTheTick : Prop :=
  ∀ s : State,
    (∀ a, (s.row a).countdown = some 0 →
        exec (.keepaliveExpiry a) s = .next (s.setRow a { (s.row a) with countdown := none, expired := true }))
      ∧ (∀ g, (s.group g).trigger = .period → (s.group g).counter = some 0 →
          exec (.periodExpiry g) s =
            .next (s.setGroup g { (s.group g) with pending := true, counter := some (s.group g).period }))
      ∧ (s.phase = .ready → s.ExpiriesTaken →
          runCommands ([.tick .apart] ++ (List.finRange 8).map .keepaliveExpiry ++ (List.finRange 8).map .periodExpiry
            ++ [.acknowledgeTimerExpiry]) s = exec (.tick .within) s)
      ∧ ∀ e, exec (.tick e) s = exec (.tick e) (if s.phase = .ready then s.expireAll else s)

/-! ### Strobes and internal work (chapters 3 and 6) -/

/-- From READY on, a change of an input from low to high raises an apply event for every STROBE group watching it; a
fall, or a high level met again, raises none. Before READY no edge is detected: a rise and a fall change nothing (R108,
R174; that the reference levels held before READY stay too is the model's: log 7). -/
def Obligations.StrobeEdgesRaiseApplyEvents : Prop :=
  ∀ (n : StrobeNo) (s : State),
    (s.phase ≠ .ready → exec (.applyStrobeEdge n) s = .next s ∧ exec (.strobeFallingEdge n) s = .next s)
      ∧ (s.phase = .ready →
        (s.applyLevels.mem n = false →
            ∃ t : State, exec (.applyStrobeEdge n) s = .next t
              ∧ t = { s with applyLevels := s.applyLevels.insert n, groups := t.groups }
              ∧ ∀ g, t.group g = { (s.group g) with pending :=
                  (s.group g).pending || ((s.group g).trigger == .strobe && (s.group g).strobe == n) })
          ∧ (s.applyLevels.mem n = true → exec (.applyStrobeEdge n) s = .next s)
          ∧ exec (.strobeFallingEdge n) s = .next { s with applyLevels := s.applyLevels.erase n })

/-- What INTERNAL does when it is granted: the lapse of the lowest expired agent, else a step of the active sweep, else
the start of a sweep of the lowest pending group, which clears the group's flag and visits no record (R117, R118). A
command naming another item, or one given when INTERNAL is not granted, changes nothing (log 2). -/
def Obligations.InternalWorkChosenInOrder : Prop :=
  ∀ s : State,
    (s.grant = some .internal →
        (∀ a : Agent, (s.row a).expired = true → (∀ b : Agent, b < a → (s.row b).expired = false) →
            exec .lapseItem s = .next ({ s with pointer := .internal }.lapseAgent a)
              ∧ exec .sweepStep s = .next s ∧ exec .sweepStart s = .next s)
          ∧ ((∀ a, (s.row a).expired = false) →
              exec .lapseItem s = .next s
                ∧ (∀ w, s.sweep = some w →
                    exec .sweepStep s = .next ({ s with pointer := .internal }.sweepOnce w)
                      ∧ exec .sweepStart s = .next s)
                ∧ (s.sweep = none → exec .sweepStep s = .next s
                    ∧ ∀ g : GroupNo, (s.group g).pending = true → (∀ b : GroupNo, b < g → (s.group b).pending = false) →
                        exec .sweepStart s = .next (({ s with
                          pointer := .internal, sweep := some { group := g, cursor := none } } : State).setGroup g
                            { (s.group g) with pending := false }))))
      ∧ (s.grant ≠ some .internal →
          exec .lapseItem s = .next s ∧ exec .sweepStep s = .next s ∧ exec .sweepStart s = .next s)

/-- A sweep step visits the lowest member above the cursor: it applies the staged value, else a pending safe value,
else nothing; a changed live value sends a notice to a bound channel and CHANGED to every watcher; with no member above
the cursor the sweep ends (R119, R120). -/
def Obligations.SweepStepVisitsNextMember : Prop :=
  ∀ (s : State) (w : Sweep), s.grant = some .internal → (∀ a, (s.row a).expired = false) → s.sweep = some w →
    (∀ (i : SlotNo) (r : Record), s.record i = some r → r.group = w.group → (∀ j, w.cursor = some j → j < i) →
        (∀ (j : SlotNo) (q : Record), j < i → s.record j = some q → (∀ m, w.cursor = some m → m < j) →
          q.group ≠ w.group) →
        let s0 : State := { s with pointer := .internal, sweep := some { group := w.group, cursor := some i } }
        (r.staged = none → r.safePending = false → exec .sweepStep s = .next s0)
          ∧ ∀ v, (r.staged = some v ∨ (r.staged = none ∧ r.safePending = true ∧ r.safe = v)) →
              let s1 := s0.setRecord i (some { r with
                live := v, staged := none, safePending := false, revision := r.revision + 1 })
              (r.live = v → exec .sweepStep s = .next s1)
                ∧ (r.live ≠ v → r.binding = none →
                    exec .sweepStep s = .next (s1.conditionAll r.watchers .changed (s.handleOf i) r.key))
                ∧ ∀ c, r.live ≠ v → r.binding = some c →
                    exec .sweepStep s =
                      .next ((s1.notice c .value v).conditionAll r.watchers .changed (s.handleOf i) r.key))
      ∧ ((∀ (j : SlotNo) (q : Record), s.record j = some q → (∀ m, w.cursor = some m → m < j) → q.group ≠ w.group) →
          exec .sweepStep s = .next { s with pointer := .internal, sweep := none })

/-- The lapse item of the lowest expired agent: its session is LOST with list and flags emptied; it is out of every
claim queue and watcher set; then each record it held has its lapse step, in ascending order of slot; the agent joins
agent 0's lost-agent set when it is not agent 0 and agent 0 is ATTACHED. Other agents' sessions stay, and those without a part in the records it held
receive nothing (R61 to R63). -/
def Obligations.LapseItemTakesSessionDown : Prop :=
  ∀ (s : State) (a : Agent), s.grant = some .internal → (s.row a).expired = true →
    (∀ b : Agent, b < a → (s.row b).expired = false) →
    let held := (List.finRange 256).filter fun i => match s.record i with | some r => r.state == .held a | none => false
    ∃ t down : State, exec .lapseItem s = .next t
      ∧ (down = { s with
            pointer := .internal, agents := down.agents, slots := down.slots, linkStalled := down.linkStalled
            lostAgents := down.lostAgents }
          ∧ (∀ b, b ≠ a → down.row b = s.row b) ∧ down.row a = t.row a
          ∧ (∀ i, down.slots.get i = { inc := (s.slots.get i).inc, record := (s.record i).map fun r =>
              { r with queue := r.queue.filter (· != a), watchers := r.watchers.erase a } })
          ∧ (a = 0 → down.linkStalled = false ∧ down.lostAgents = FinSet.empty 8)
          ∧ (a ≠ 0 → down.linkStalled = s.linkStalled ∧ down.lostAgents = s.lostAgents)
          ∧ t = { held.foldl State.lapseStep down with lostAgents := t.lostAgents })
      ∧ t.row a = { (s.row a) with
          state := .lost, overflow := false, countdown := none, expired := false, attention := [] }
      ∧ (∀ i, t.record i = (s.record i).map fun r =>
          if r.state = .held a then (r.dropAgent a).afterLapse (s.group r.group).trigger else r.dropAgent a)
      ∧ (∀ b, b ≠ a → (t.row b).state = (s.row b).state ∧ (t.row b).epoch = (s.row b).epoch
          ∧ (t.row b).port = (s.row b).port ∧ (t.row b).period = (s.row b).period
          ∧ (t.row b).countdown = (s.row b).countdown ∧ (t.row b).expired = (s.row b).expired)
      ∧ (∀ b, b ≠ a → (∀ i r, s.record i = some r → r.state = .held a → r.watchers.mem b = false ∧ b ∉ r.queue) →
          t.row b = s.row b)
      ∧ (a ≠ 0 → (s.row 0).state = .attached → t.lostAgents = s.lostAgents.insert a)
      ∧ (a ≠ 0 → (s.row 0).state ≠ .attached → t.lostAgents = s.lostAgents)
      ∧ (a ≠ 0 → t.linkStalled = s.linkStalled)
      ∧ (a = 0 → t.linkStalled = false ∧ t.lostAgents = FinSet.empty 8)
      ∧ t.pointer = .internal ∧ (∀ i, (t.slots.get i).inc = (s.slots.get i).inc) ∧ t.keyIndex = s.keyIndex
      ∧ t.freeList = s.freeList ∧ t.rights = s.rights ∧ t.groups = s.groups ∧ t.sweep = s.sweep
      ∧ t.ports = s.ports ∧ t.engine = s.engine ∧ t.link = s.link
      ∧ t.phase = s.phase ∧ t.applyLevels = s.applyLevels ∧ t.uldat = s.uldat ∧ t.pending = s.pending
      ∧ ((∀ i r, s.record i = some r → r.state = .held a → r.binding = none) →
          t.updateQueue = s.updateQueue ∧ t.channels = s.channels)
      ∧ ∀ c, (t.channel c).binding = (s.channel c).binding ∧ (t.channel c).park = (s.channel c).park
          ∧ (t.channel c).acked = (s.channel c).acked

/-- One record's lapse step: the staged value is discarded, the policy applied by the trigger of the record's group,
the record LAPSED or HELD by its head waiter, the revision advanced once; a changed live value goes to a bound channel;
watchers receive LAPSED and then the new owner GRANTED_AFTER_LAPSE (R62, R88, R122). -/
def Obligations.LapseStepAppliesPolicy : Prop :=
  ∀ (s : State) (i : SlotNo) (r : Record), s.record i = some r →
    let toSafe := r.policy = .safeNow ∨ (r.policy = .safeAtApply ∧ (s.group r.group).trigger = .onStage)
    let marked := r.policy = .safeAtApply ∧ (s.group r.group).trigger ≠ .onStage
    ∃ r', (s.lapseStep i).record i = some r'
      ∧ r' = { r with
          live := r'.live, staged := none, safePending := r'.safePending, state := r'.state, queue := r'.queue
          revision := r.revision + 1 }
      ∧ (toSafe → r'.live = r.safe) ∧ (¬ toSafe → r'.live = r.live)
      ∧ (marked → r'.safePending = true) ∧ (¬ marked → r'.safePending = r.safePending)
      ∧ (r.queue = [] → r'.state = .lapsed ∧ r'.queue = [])
      ∧ (∀ w ws, r.queue = w :: ws → r'.state = .held w ∧ r'.queue = ws)
      ∧ (∀ j, j ≠ i → (s.lapseStep i).record j = s.record j)
      ∧ (∀ c, r.binding = some c → r.live ≠ r'.live →
          (s.lapseStep i).updateQueue = enqueue { channel := c, kind := .value, value := r'.live } s.updateQueue
            ∧ ((s.lapseStep i).channel c).driven = r'.live)
      ∧ (r.binding = none ∨ r.live = r'.live →
          (s.lapseStep i).updateQueue = s.updateQueue ∧ (s.lapseStep i).channels = s.channels)
      ∧ ∀ b, (s.lapseStep i).row b =
          (let row := if r.watchers.mem b then (s.row b).condition .lapsed (s.handleOf i) r.key else s.row b
           if r.queue.head? = some b then row.condition .grantedAfterLapse (s.handleOf i) r.key else row)

/-! ### Attention lists and the update queue -/

/-- How a condition enters a list: the reason joins the entry of the handle, or a new entry is appended while there are
fewer than 24, or the condition is dropped and OVERFLOW set; nothing is recorded for a session that is not ATTACHED
(R131, R132). -/
def Obligations.ConditionEntersTheList : Prop :=
  ∀ (row : AgentRow) (x : Reason) (h : Handle) (k : Key),
    (row.state ≠ .attached → row.condition x h k = row)
      ∧ (row.state = .attached → ∀ pre e post, row.attention = pre ++ e :: post → e.handle = h →
          (∀ d ∈ pre ++ post, d.handle ≠ h) →
          row.condition x h k =
            { row with attention := pre ++ { e with key := k, reasons := e.reasons.insert x.idx } :: post })
      ∧ (row.state = .attached → (∀ d ∈ row.attention, d.handle ≠ h) →
          (row.attention.length < 24 →
              row.condition x h k = { row with attention := row.attention ++
                [{ handle := h, key := k, reasons := (FinSet.empty 6).insert x.idx }] })
            ∧ (24 ≤ row.attention.length → row.condition x h k = { row with overflow := true }))

/-- How a value notice enters the update queue: it replaces the channel's waiting entry in its place, or joins at the
tail; the channel's driven value becomes its value, and the frame in flight stays (R141, R147). -/
def Obligations.NoticeEntersTheQueue : Prop :=
  ∀ (s : State) (c : ChannelNo) (k : UpdKind) (v : Value),
    (∀ pre u post, s.updateQueue = pre ++ u :: post → u.channel = c → (∀ d ∈ pre, d.channel ≠ c) →
        (s.notice c k v).updateQueue = pre ++ { channel := c, kind := k, value := v } :: post)
      ∧ ((∀ d ∈ s.updateQueue, d.channel ≠ c) →
          (s.notice c k v).updateQueue = s.updateQueue ++ [{ channel := c, kind := k, value := v }])
      ∧ (s.notice c k v).channel c = { (s.channel c) with driven := v }
      ∧ (∀ d, d ≠ c → (s.notice c k v).channel d = s.channel d) ∧ (s.notice c k v).link = s.link
      ∧ ((s.updateQueue.map (·.channel)).Nodup → s.updateQueue.length ≤ 32
          ∧ ((s.notice c k v).updateQueue.map (·.channel)).Nodup)

/-! ### The update link (chapter 8) -/

/-- The end of an attempt's frame: the five bytes sent are the start marker, kind and channel, the value with its most
significant byte first, and the CRC-8 of the middle three; they do not depend on the attempt (R183). -/
def Obligations.AttemptSendsFiveBytes : Prop :=
  ∀ (s : State) (f : Update) (n : Nat), s.link = .sending f n →
    let kc : Byte := BitVec.ofNat 8 ((if f.kind = .parked then 128 else 0) + f.channel.val)
    let hi : Byte := f.value.extractLsb' 8 8
    let lo : Byte := f.value.extractLsb' 0 8
    exec .frameEnd s = .next { s with
      link := .awaitAck f n 2, uldat := [0xC3, kc, hi, lo, crc8 [kc, hi, lo]] }

/-- The transmitter's life of a frame: taken from the head of the queue in IDLE with attempt 1; acknowledged in
AWAIT_ACK, which sets the channel's acknowledged value and ends the frame; sent again at the timer's expiry after
attempts 1 to 3, stalled after attempt 4 with LINK_STALLED set when agent 0 is ATTACHED (R149 to R151). -/
def Obligations.FrameTakenAcknowledgedRetried : Prop :=
  ∀ s : State,
    (∀ u us, s.phase = .ready → s.link = .idle → s.updateQueue = u :: us →
        exec .takeIntoFlight s = .next { s with link := .sending u 1, updateQueue := us })
      ∧ (∀ f n m, s.link = .awaitAck f n m →
          exec .acknowledge s =
            .next ({ s with link := .idle }.setChannel f.channel { (s.channel f.channel) with acked := f.value }))
      ∧ (∀ f n, s.link = .awaitAck f n 0 → n < 4 →
          exec .acknowledgeTimerExpiry s = .next { s with link := .sending f (n + 1) })
      ∧ ∀ f n, s.link = .awaitAck f n 0 → 4 ≤ n →
          exec .acknowledgeTimerExpiry s = .next { s with
            link := .stalled f, linkStalled := s.linkStalled || (s.row 0).state == .attached }

/-- An acknowledge in IDLE, SENDING or STALLED is ignored; of an acknowledge and an expiry that both fall due, the one
taken first decides (R152). -/
def Obligations.LateAcknowledgeIgnored : Prop :=
  ∀ s : State,
    ((∀ f n m, s.link ≠ .awaitAck f n m) → exec .acknowledge s = .next s)
      ∧ ∀ f n, s.link = .awaitAck f n 0 →
          (∃ t : State, runCommands [.acknowledge, .acknowledgeTimerExpiry] s = .next t ∧ exec .acknowledge s = .next t
              ∧ t.link = .idle ∧ (t.channel f.channel).acked = f.value)
            ∧ (n < 4 → runCommands [.acknowledgeTimerExpiry, .acknowledge] s =
                .next { s with link := .sending f (n + 1) })
            ∧ (n = 4 → runCommands [.acknowledgeTimerExpiry, .acknowledge] s = .next { s with
                link := .stalled f, linkStalled := s.linkStalled || (s.row 0).state == .attached })

/-- The CRC-8: the register starts at 0; a byte is exclusive-ORed in and shifted left eight times, with 0x07
exclusive-ORed at each 1 shifted out; every response frame ends in the CRC of the bytes before it; and the computation
over a frame with its CRC gives 0 (R182). The outcome codes are those of Table 11-2; the codes of
record, session and transmitter states, of update kinds, policies, triggers and reasons, the bits of session flags and of
sets, and the bytes of a flag, a 16-bit item, a handle and an item that may be absent are those of R178 and R180. -/
def Obligations.CrcOfAFrame : Prop :=
  let shift : Byte → Byte := fun r => if r.msb then (r <<< 1) ^^^ 0x07 else r <<< 1
  crc8 [] = 0
    ∧ (∀ (bs : List Byte) (b : Byte),
        crc8 (bs ++ [b]) = shift (shift (shift (shift (shift (shift (shift (shift (crc8 bs ^^^ b)))))))))
    ∧ (∀ bs : List Byte, crc8 (bs ++ [crc8 bs]) = 0)
    ∧ (∀ (tag : Byte) (o : ReqOutcome) (body : List Byte),
        responseFrame tag o body = BitVec.ofNat 8 (body.length + 4) :: tag :: o.code :: body
          ++ [crc8 (BitVec.ofNat 8 (body.length + 4) :: tag :: o.code :: body)])
    ∧ (∀ (frame : List Byte), frameFault frame 0 = none → crc8 frame = 0)
    ∧ (∀ u : Update, crc8 ((updateFrame u).drop 1) = 0)
    ∧ ([.done, .queued, .unknownKind, .notAttached, .sessionLost, .staleSession, .wrongPort, .noRight, .badField, .notFound,
        .staleHandle, .notOwner, .revisionMismatch, .exists_, .directoryFull, .outOfRange, .limitConflict, .owned,
        .alreadyOwner, .alreadyQueued, .queueFull, .claimPoolEmpty, .notQueued, .notHeld, .notLapsed, .nothingStaged,
        .notWatching, .bound, .channelBusy, .wrongTrigger, .notStalled].map ReqOutcome.code =
      [0x00, 0x01, 0x10, 0x11, 0x12, 0x13, 0x14, 0x20, 0x21, 0x22, 0x23, 0x24, 0x25, 0x30, 0x31, 0x32, 0x33, 0x34, 0x35,
        0x36, 0x37, 0x38, 0x39, 0x3A, 0x3B, 0x3C, 0x3D, 0x3E, 0x3F, 0x40, 0x41])
    ∧ (RecState.opened.code = 1 ∧ (∀ a, (RecState.held a).code = 2) ∧ RecState.lapsed.code = 3)
    ∧ [SessState.detached, .attached, .lost].map SessState.code = [0, 1, 2]
    ∧ [Policy.hold, .safeNow, .safeAtApply].map Policy.code = [0, 1, 2]
    ∧ [Trigger.onStage, .strobe, .period, .command].map Trigger.code = [0, 1, 2, 3]
    ∧ [Reason.granted, .grantedAfterLapse, .revoked, .lapsed, .changed, .retired].map Reason.idx = [0, 1, 2, 3, 4, 5]
    ∧ (∀ (n : Nat) (m : FinSet n), n ≤ 8 → ∀ i : Fin n, m.toByte.getLsbD i.val = m.mem i)
    ∧ [UpdKind.value, .parked].map UpdKind.code = [0, 1]
    ∧ (Link.idle.code = 0 ∧ ∀ u n m, (Link.sending u n).code = 1 ∧ (Link.awaitAck u n m).code = 2
        ∧ (Link.stalled u).code = 3)
    ∧ (∀ o l, flagsByte o l = (if o then 1 else 0) + (if l then 2 else 0))
    ∧ (∀ b, flag b = [if b then 1 else 0])
    ∧ (∀ v : BitVec 16, bytes16 v = [v.extractLsb' 8 8, v.extractLsb' 0 8])
    ∧ (∀ n : Nat, bytesOf16 n = bytes16 (BitVec.ofNat 16 n))
    ∧ (∀ h : Handle, encHandle h = [BitVec.ofNat 8 h.slot.val, h.inc])
    ∧ ∀ (α : Type) (enc : α → List Byte), optional enc none = [0] ∧ ∀ x, optional enc (some x) = 1 :: enc x

/-! ### Sessions (chapter 3) -/

/-- An accepted ATTACH: a live session lapses first, as the lapse item does; then the new session begins with the next
epoch (255 is followed by 1), the requesting port, the period and a full countdown (R55 to R57). That the period in the
response, never absent there, takes no presence byte is the model's reading (log 10). -/
def Obligations.AttachBeginsSession : Prop :=
  ∀ (s : State) (p : PortId) (f : List Byte) (a : Agent) (n : Nat),
    s.Offers p f ReqKind.attach.code → (frameAgent f).toNat = a.val →
    parseAttach a (frameOptions f) (frameBody f) = some n →
    let e : Epoch := if (s.row a).epoch = 255 then 1 else (s.row a).epoch + 1
    ((s.row a).state ≠ .attached →
        exec (.attach p .whole) s = .next (((s.takeFrom p).setRow a { (s.row a) with
            state := .attached, epoch := e, port := some p, period := some n
            countdown := if n = 0 then none else some n, expired := false }).answered p f .done
          ([e] ++ bytesOf16 n ++ [if (s.row a).state = .lost then 2 else 0, 0])))
      ∧ ((s.row a).state = .attached →
          exec (.attach p .whole) s = .next ((((s.takeFrom p).lapseAgent a).setRow a { (s.row a) with
              state := .attached, epoch := e, port := some p, period := some n
              countdown := if n = 0 then none else some n, expired := false, overflow := false
              attention := [] }).answered p f .done ([e] ++ bytesOf16 n ++ [1, 1])))

/-- An accepted DETACH: the agent leaves every claim queue and watcher set; each record it held passes to its head
waiter, who is told GRANTED, or becomes OPEN, in ascending order of slot; the session is DETACHED with its epoch kept; the
response counts records, handovers, claims and watches (R59, R60, R73, R87). -/
def Obligations.DetachReleasesEverything : Prop :=
  ∀ (s : State) (p : PortId) (f : List Byte) (a : Agent), s.Admits p .detach f a → frameOptions f = 0 →
    frameBody f = [] →
    let count : (Record → Bool) → Nat := fun test =>
      ((List.finRange 256).filter fun i => match s.record i with | some r => test r | none => false).length
    ∃ t : State, exec (.detach p .whole) s = .next (t.answered p f .done
        (bytesOf16 (count fun r => r.state == .held a)
          ++ [BitVec.ofNat 8 (count fun r => r.state == .held a && r.queue.any (· != a)),
              BitVec.ofNat 8 (count fun r => r.queue.contains a)]
          ++ bytesOf16 (count fun r => r.watchers.mem a)))
      ∧ t.row a = { (s.row a) with
          state := .detached, port := none, period := none, overflow := false, countdown := none, expired := false
          attention := [] }
      ∧ (∀ i, t.record i = (s.record i).map fun r =>
          if r.state = .held a then
            { r with
              state := (match r.queue.filter (· != a) with | [] => .opened | w :: _ => .held w)
              queue := (r.queue.filter (· != a)).tail
              staged := none, watchers := r.watchers.erase a, revision := r.revision + 1 }
          else { r with queue := r.queue.filter (· != a), watchers := r.watchers.erase a })
      ∧ (∀ b, b ≠ a → (t.row b).state = (s.row b).state ∧ (t.row b).epoch = (s.row b).epoch
          ∧ (t.row b).port = (s.row b).port ∧ (t.row b).period = (s.row b).period
          ∧ (t.row b).countdown = (s.row b).countdown ∧ (t.row b).expired = (s.row b).expired)
      ∧ (∀ b, b ≠ a → (∀ i r, s.record i = some r → r.state = .held a → b ∉ r.queue) → t.row b = s.row b)
      ∧ (∀ b, b ≠ a → t.row b = (List.finRange 256).foldl (fun row i =>
          match s.record i with
          | some r =>
            if r.state = .held a ∧ (r.queue.filter (· != a)).head? = some b then
              row.condition .granted (s.handleOf i) r.key
            else row
          | none => row) (s.row b))
      ∧ (a ≠ 0 → t.linkStalled = s.linkStalled ∧ t.lostAgents = s.lostAgents)
      ∧ (a = 0 → t.linkStalled = false ∧ t.lostAgents = FinSet.empty 8)
      ∧ (∀ i, (t.slots.get i).inc = (s.slots.get i).inc) ∧ t.keyIndex = s.keyIndex ∧ t.freeList = s.freeList
      ∧ t.rights = s.rights ∧ t.groups = s.groups ∧ t.sweep = s.sweep ∧ t.channels = s.channels
      ∧ t.updateQueue = s.updateQueue ∧ t.link = s.link ∧ t.ports = (s.takeFrom p).ports ∧ t.pointer = .port p
      ∧ t.phase = s.phase ∧ t.applyLevels = s.applyLevels ∧ t.uldat = s.uldat ∧ t.pending = s.pending

/-- An accepted KEEPALIVE changes nothing but the renewal and reports the period and the ticks left before it; and a
renewal reloads the countdown from the period and clears the expired flag (R39, R50, R58). -/
def Obligations.KeepaliveRenewsAndReports : Prop :=
  ∀ (s : State) (p : PortId) (f : List Byte) (a : Agent), s.Admits p .keepalive f a → frameOptions f = 0 →
    frameBody f = [] → ∀ n, (s.row a).period = some n →
    exec (.keepalive p .whole) s =
        .next ((s.begun p a).answered p f .done (bytesOf16 n ++ bytesOf16 (s.ticksLeft a)))
      ∧ s.begun p a = (s.takeFrom p).setRow a { (s.row a) with
          countdown := if n = 0 then none else some n, expired := false }

/-- The three queries change nothing but the renewal and report an agent, a group or a channel with the transmitter (R65,
R116, R146). How some items of a channel's report are written is the model's reading (log 11), and so is what is shown of a
timer that is due (log 5). -/
def Obligations.QueriesReport : Prop :=
  ∀ (s : State) (p : PortId) (f : List Byte),
    (∀ b, s.Admits p .queryAgent f 0 → parseAgent (frameOptions f) (frameBody f) = some b →
        exec (.queryAgent p .whole) s = .next ((s.begun p 0).answered p f .done
          (let row := (s.begun p 0).row b
           [row.state.code, row.epoch] ++ optional small row.port ++ optional bytesOf16 row.period
            ++ optional bytesOf16 (if row.expired ∧ row.countdown = none then some 0 else row.countdown)
            ++ bytesOf16 (s.heldSlots b).length ++ [byteOf (s.claimsOf b), byteOf row.attention.length]
            ++ (List.finRange 8).map fun c => (s.rightsOf b c).toByte)))
      ∧ (∀ g, s.Admits p .queryGroup f 0 → parseGroup (frameOptions f) (frameBody f) = some g →
          exec (.queryGroup p .whole) s = .next ((s.begun p 0).answered p f .done
            (let r := s.group g
             let active := s.sweep.isSome ∧ s.sweep.map (·.group) = some g
             [r.trigger.code, byteOf r.strobe.val] ++ bytesOf16 r.period ++ [r.applyAgents.toByte] ++ flag r.pending
              ++ optional bytesOf16 (if r.trigger = .period then r.counter.map (max · 1) else none) ++ flag (decide active)
              ++ optional small (if active then s.sweep.bind (·.cursor) else none))))
      ∧ ∀ (c : ChannelNo) (bound waiting : List Byte), s.Admits p .queryChannel f 0 →
          parseChannel (frameOptions f) (frameBody f) = some c →
          let ch := s.channel c
          let kind : UpdKind → Byte := fun k => if k = .parked then 1 else 0
          ((ch.binding = none ∧ bound = [0])
            ∨ ∃ i r, ch.binding = some i ∧ s.record i = some r
                ∧ bound = [1, byteOf i.val, (s.slots.get i).inc] ++ bytes16 r.key) →
          (((∀ u ∈ s.updateQueue, u.channel ≠ c) ∧ waiting = [0])
            ∨ ∃ pre u post, s.updateQueue = pre ++ u :: post ∧ (∀ d ∈ pre, d.channel ≠ c) ∧ u.channel = c
                ∧ waiting = [1, kind u.kind] ++ bytes16 u.value ++ [byteOf (pre.length + 1)]) →
          let flight : Update → List Byte := fun u => if u.channel = c then [1, kind u.kind] ++ bytes16 u.value else [0]
          let link : List Byte := match s.link with
            | .idle => [0, 0, 0, 0, 0]
            | .sending u n => flight u ++ [1, 1, byteOf n, 1, byteOf u.channel.val, 0]
            | .awaitAck u n m => flight u ++ [2, 1, byteOf n, 1, byteOf u.channel.val, 1] ++ bytesOf16 (max m 1)
            | .stalled u => flight u ++ [3, 1, 4, 1, byteOf u.channel.val, 0]
          exec (.queryChannel p .whole) s = .next ((s.begun p 0).answered p f .done
            (bound ++ bytes16 ch.park ++ bytes16 ch.driven ++ bytes16 ch.acked ++ waiting ++ link
              ++ [byteOf s.updateQueue.length]))

/-- An accepted RESTART: every slot FREE with its incarnation kept, the free-slot list rebuilt, the index empty; rights,
group configurations, the transmitter, the other port and LAST kept; sessions of agents 1 to 7 ended with their epochs
kept, agent 0's kept with list and flags emptied; pending flags and the sweep gone, period counters reloaded; every
bound channel unbound with its park value driven and queued, the entries already waiting keeping their places (R29, R66
to R68). -/
def Obligations.RestartClearsTheDirectory : Prop :=
  ∀ (s : State) (p : PortId) (f : List Byte), s.Admits p .restart f 0 → frameOptions f = 0 → frameBody f = [] →
    (s.updateQueue.map (·.channel)).Nodup →
    ∃ t : State, exec (.restart p .whole) s = .next (t.answered p f .done
        (bytesOf16 ((List.finRange 256).filter fun i => (s.record i).isSome).length
          ++ [byteOf ((List.finRange 8).filter fun a => a != 0 && (s.row a).state != .detached).length,
              byteOf ((List.finRange 32).filter fun c => (s.channel c).binding.isSome).length]))
      ∧ (∀ i, t.slots.get i = { inc := (s.slots.get i).inc, record := none }) ∧ t.keyIndex = []
      ∧ t.freeList = List.finRange 256 ∧ t.rights = s.rights ∧ t.applyLevels = s.applyLevels ∧ t.link = s.link
      ∧ t.ports = (s.takeFrom p).ports ∧ t.pointer = .port p ∧ t.sweep = none
      ∧ t.phase = s.phase ∧ t.uldat = s.uldat ∧ t.pending = s.pending
      ∧ t.linkStalled = false ∧ t.lostAgents = FinSet.empty 8
      ∧ t.row 0 = { ((s.begun p 0).row 0) with overflow := false, attention := [] }
      ∧ (∀ a, a ≠ 0 → (s.row a).state ≠ .detached → t.row a = { (s.row a) with
          state := .detached, port := none, period := none, overflow := false, countdown := none, expired := false
          attention := [] })
      ∧ (∀ a, a ≠ 0 → (s.row a).state = .detached → t.row a = s.row a)
      ∧ (∀ g, t.group g = { (s.group g) with
          pending := false
          counter := if (s.group g).trigger = .period then some (s.group g).period else none })
      ∧ (∀ c, (s.channel c).binding = none → t.channel c = s.channel c)
      ∧ (∀ c, (s.channel c).binding ≠ none →
          t.channel c = { (s.channel c) with binding := none, driven := (s.channel c).park })
      ∧ (s.updateQueue.map (·.channel)) <+: (t.updateQueue.map (·.channel))
      ∧ (t.updateQueue.map (·.channel)).Nodup
      ∧ ∀ u : Update, u ∈ t.updateQueue ↔
          (((s.channel u.channel).binding ≠ none ∧ u.kind = .parked ∧ u.value = (s.channel u.channel).park)
            ∨ ((s.channel u.channel).binding = none ∧ u ∈ s.updateQueue))

/-! ### Rights (chapter 2) -/

/-- An accepted SET_RIGHTS replaces one set and no other, and reports the set now held and the set replaced (R33). -/
def Obligations.SetRightsReplacesOneSet : Prop :=
  ∀ (s : State) (p : PortId) (f : List Byte) (b : Agent) (c : ClassNo) (x : RightSet), s.Admits p .setRights f 0 →
    parseSetRights (frameOptions f) (frameBody f) = some (b, c, x) →
    ∃ t : State, exec (.setRights p .whole) s = .next (t.answered p f .done
        [byteOf b.val, byteOf c.val, x.toByte, (s.rightsOf b c).toByte])
      ∧ t = { s.begun p 0 with rights := t.rights }
      ∧ ∀ d e, t.rightsOf d e = if d = b ∧ e = c then x else s.rightsOf d e

/-! ### The directory (chapter 1) -/

/-- An accepted CREATE takes the slot at the head of the free-slot list, advances its incarnation, fills it with the
record the table of R16 gives, and enters the key in the index in ascending order (R11, R12, R16). -/
def Obligations.CreateFillsTheHeadSlot : Prop :=
  ∀ (s : State) (p : PortId) (f : List Byte) (a : Agent) (q : CreateFields) (i : SlotNo) (rest : List SlotNo),
    s.Admits p .create f a → parseCreate (frameOptions f) (frameBody f) = some q →
    s.holds a q.cls .create = true → (∀ e ∈ s.keyIndex, e.1 ≠ q.key) → s.freeList = i :: rest →
    q.min.toInt ≤ q.live.toInt → q.live.toInt ≤ q.max.toInt → q.min.toInt ≤ q.safe.toInt →
    q.safe.toInt ≤ q.max.toInt →
    let r : Record :=
      { key := q.key, cls := q.cls, group := q.group, state := if q.unowned then .opened else .held a
        min := q.min, max := q.max, live := q.live, staged := none, safe := q.safe, policy := q.policy
        safePending := false, revision := 1, binding := none, queue := [], watchers := FinSet.empty 8 }
    ∃ index : List (Key × SlotNo),
      exec (.create p .whole) s = .next (({ s.begun p a with
          slots := s.slots.set i { inc := (s.slots.get i).inc + 1, record := some r }, freeList := rest
          keyIndex := index } : State).answered p f .done [byteOf i.val, (s.slots.get i).inc + 1])
        ∧ (∀ e, e ∈ index ↔ e = (q.key, i) ∨ e ∈ s.keyIndex)
        ∧ (s.keyIndex.Pairwise (fun e g => e.1.toNat < g.1.toNat) →
            index.Pairwise (fun e g => e.1.toNat < g.1.toNat))

/-- CREATE's three conditions at check 9 in their order: key, space, values; a refusal writes nothing (R15). -/
def Obligations.CreateRefusedInOrder : Prop :=
  ∀ (s : State) (p : PortId) (f : List Byte) (a : Agent) (q : CreateFields),
    s.Admits p .create f a → parseCreate (frameOptions f) (frameBody f) = some q →
    s.holds a q.cls .create = true →
    let outside : Value → Prop := fun v => v.toInt < q.min.toInt ∨ q.max.toInt < v.toInt
    ((∃ e ∈ s.keyIndex, e.1 = q.key) →
        exec (.create p .whole) s = .next ((s.begun p a).answered p f .exists_ []))
      ∧ ((∀ e ∈ s.keyIndex, e.1 ≠ q.key) → s.freeList = [] →
          exec (.create p .whole) s = .next ((s.begun p a).answered p f .directoryFull []))
      ∧ ((∀ e ∈ s.keyIndex, e.1 ≠ q.key) → s.freeList ≠ [] → outside q.live ∨ outside q.safe →
          exec (.create p .whole) s = .next ((s.begun p a).answered p f .outOfRange []))
      ∧ (s.begun p a).freeList = s.freeList ∧ (s.begun p a).keyIndex = s.keyIndex ∧ (s.begun p a).slots = s.slots

/-- RETIRE past checks 4 to 8: refused BOUND from an agent other than 0 when the record is bound; else RETIRED is told
to claimants, watchers and owner but not the requester, a bound channel is unbound and its park value queued, the key
leaves the index, and the slot is FREE at the tail of the free-slot list with its incarnation kept (R18 to R21). -/
def Obligations.RetireDismantlesTheRecord : Prop :=
  ∀ (s : State) (p : PortId) (f : List Byte) (a : Agent) (h : Handle) (g : Option (BitVec 16)) (r : Record),
    s.Admits p .retire f a → parseHandle optGuard (frameOptions f) (frameBody f) = some (h, g) → s.Names h r →
    s.holds a r.cls .retire = true → (a = 0 ∨ r.state = .held a) → GuardPasses g r →
    (a ≠ 0 → r.binding ≠ none →
        exec (.retire p .whole) s = .next ((s.begun p a).answered p f .bound []))
      ∧ (a = 0 ∨ r.binding = none →
          ∃ told : AgentSet,
            (∀ b, told.mem b = true ↔ b ≠ a ∧ (b ∈ r.queue ∨ r.watchers.mem b = true ∨ r.state = .held b))
              ∧ let s1 := (s.begun p a).conditionAll told .retired h r.key
                (∀ s2, (r.binding = none → s2 = s1) → (∀ c, r.binding = some c →
                    s2 = (s1.setChannel c { (s.channel c) with binding := none }).notice c .parked (s.channel c).park) →
                  exec (.retire p .whole) s = .next (({ s2.setRecord h.slot none with
                      keyIndex := s.keyIndex.filter fun e => e.1 != r.key
                      freeList := s.freeList ++ [h.slot] } : State).answered p f .done
                    (encHandle h ++ bytes16 r.revision ++ optional small r.binding))))

/-- LOOKUP and READ answer the full report of the record, in the order R24 lists; ENUMERATE answers up to six records
above its after-key that the requester may read, ascending, and MORE. None writes anything but the renewal (R22 to
R26). -/
def Obligations.ReadsReportTheDirectory : Prop :=
  ∀ (s : State) (p : PortId) (f : List Byte) (a : Agent),
    let report : Handle → Record → List Byte := fun h r =>
      [byteOf h.slot.val, h.inc] ++ bytes16 r.key ++ [byteOf r.cls.val, byteOf r.group.val, r.state.code]
        ++ optional small r.state.owner ++ bytes16 r.min ++ bytes16 r.max ++ bytes16 r.live
        ++ optional bytes16 r.staged ++ bytes16 r.safe ++ [r.policy.code] ++ flag r.safePending ++ bytes16 r.revision
        ++ optional small r.binding ++ [byteOf r.queue.length] ++ r.queue.map (fun b => byteOf b.val)
        ++ [r.watchers.toByte]
    let brief : Handle × Record → List Byte := fun e =>
      bytes16 e.2.key ++ [byteOf e.1.slot.val, e.1.inc, e.2.state.code] ++ optional small e.2.state.owner
        ++ bytes16 e.2.revision ++ bytes16 e.2.live
    (∀ h r, s.Admits p .read f a → parseHandle 0 (frameOptions f) (frameBody f) = some (h, none) → s.Names h r →
        s.holds a r.cls .read = true →
        exec (.read p .whole) s = .next ((s.begun p a).answered p f .done (report h r)))
      ∧ (∀ k, s.Admits p .lookup f a → parseKey (frameOptions f) (frameBody f) = some k → s.StoreLaw →
          (∀ i r, s.record i = some r → r.key = k →
              (s.holds a r.cls .read = true →
                  exec (.lookup p .whole) s = .next ((s.begun p a).answered p f .done (report (s.handleOf i) r)))
                ∧ (s.holds a r.cls .read = false →
                    exec (.lookup p .whole) s = .next ((s.begun p a).answered p f .noRight [])))
            ∧ ((∀ i r, s.record i = some r → r.key ≠ k) →
                exec (.lookup p .whole) s = .next ((s.begun p a).answered p f .notFound [])))
      ∧ ∀ k, s.Admits p .enumerate f a → parseAfterKey (frameOptions f) (frameBody f) = some k → s.StoreLaw →
          ∃ found : List (Handle × Record),
            found.Pairwise (fun e g => e.2.key.toNat < g.2.key.toNat)
              ∧ (∀ h r, (h, r) ∈ found ↔ s.Names h r ∧ k.toNat < r.key.toNat ∧ s.holds a r.cls .read = true)
              ∧ exec (.enumerate p .whole) s = .next ((s.begun p a).answered p f .done
                  (byteOf (found.take 6).length :: (found.take 6).flatMap brief ++ flag (decide (6 < found.length))))

/-! ### Ownership (chapter 4) -/

/-- CLAIM past checks 4 to 8 is decided by the record's state and owner, the wait option, the queue and the pool, in
the order of the table of R75; each outcome carries the body stated, and only a grant or an entry in the queue writes
the record (R75 to R77). That an owner never absent takes no presence byte is the model's reading (log 10). -/
def Obligations.ClaimDecidedByTheTable : Prop :=
  ∀ (s : State) (p : PortId) (f : List Byte) (a : Agent) (h : Handle) (g : Option (BitVec 16)) (r : Record),
    s.Admits p .claim f a → parseHandle (optWait ||| optGuard) (frameOptions f) (frameBody f) = some (h, g) →
    s.Names h r → s.holds a r.cls .claim = true → GuardPasses g r →
    let wait := (frameOptions f).getLsbD 1
    let answers : State → ReqOutcome → List Byte → Prop := fun t o body =>
      exec (.claim p .whole) s = .next (t.answered p f o body)
    let b := s.begun p a
    (r.state = .opened ∨ r.state = .lapsed →
        answers (b.setRecord h.slot (some { r with state := .held a, staged := none, revision := r.revision + 1 })) .done
          (encHandle h ++ bytes16 (r.revision + 1) ++ flag (r.state == .lapsed) ++ flag r.safePending))
      ∧ (r.state = .held a → answers b .alreadyOwner (bytes16 r.revision))
      ∧ ∀ o, r.state = .held o → o ≠ a →
          (wait = false → answers b .owned [byteOf o.val])
            ∧ (wait = true → ∀ pre post, r.queue = pre ++ a :: post → a ∉ pre →
                answers b .alreadyQueued [byteOf (pre.length + 1), byteOf o.val])
            ∧ (wait = true → a ∉ r.queue → 4 ≤ r.queue.length → answers b .queueFull [byteOf o.val])
            ∧ (wait = true → a ∉ r.queue → r.queue.length < 4 → 64 ≤ s.claimsInUse → answers b .claimPoolEmpty [])
            ∧ (wait = true → a ∉ r.queue → r.queue.length < 4 → s.claimsInUse < 64 →
                answers (b.setRecord h.slot (some { r with queue := r.queue ++ [a] })) .queued
                  ([byteOf (r.queue.length + 1), byteOf o.val] ++ bytes16 r.revision))

/-- RELEASE by the owner and REVOKE by agent 0 hand the record on: the staged value is discarded, the head waiter is
granted it and told GRANTED (unless it is the requester), or it becomes OPEN; a former owner other than agent 0 is told
REVOKED; REVOKE of a record that is not HELD is refused NOT_HELD with its state (R72, R73, R80, R83, R84). How the
bodies write the owners is the model's reading (log 10). -/
def Obligations.ReleaseAndRevokeHandOn : Prop :=
  ∀ (s : State) (p : PortId) (f : List Byte) (a : Agent) (h : Handle) (g : Option (BitVec 16)) (r : Record),
    s.Names h r →
    let opened : Record := { r with state := .opened, staged := none, revision := r.revision + 1 }
    let granted : Agent → List Agent → Record := fun w ws =>
      { r with state := .held w, queue := ws, staged := none, revision := r.revision + 1 }
    (s.Admits p .release f a → parseHandle optGuard (frameOptions f) (frameBody f) = some (h, g) →
        r.state = .held a → GuardPasses g r →
        (r.queue = [] →
            exec (.release p .whole) s = .next (((s.begun p a).setRecord h.slot (some opened)).answered p f .done
              (encHandle h ++ bytes16 (r.revision + 1) ++ [0])))
          ∧ ∀ w ws, r.queue = w :: ws → w ≠ a →
              exec (.release p .whole) s =
                .next ((((s.begun p a).setRecord h.slot (some (granted w ws))).condition w .granted h r.key).answered
                  p f .done (encHandle h ++ bytes16 (r.revision + 1) ++ [1, byteOf w.val])))
      ∧ (s.Admits p .revoke f 0 → parseHandle 0 (frameOptions f) (frameBody f) = some (h, none) →
          (r.state ≠ .opened → r.state ≠ .lapsed → ∀ o, r.state = .held o →
              let told := if o = 0 then s.begun p 0 else (s.begun p 0).condition o .revoked h r.key
              (r.queue = [] →
                  exec (.revoke p .whole) s = .next ((told.setRecord h.slot (some opened)).answered p f .done
                    (encHandle h ++ bytes16 (r.revision + 1) ++ [byteOf o.val, 0])))
                ∧ ∀ w ws, r.queue = w :: ws →
                    exec (.revoke p .whole) s =
                      .next ((if w = 0 then told.setRecord h.slot (some (granted w ws))
                          else (told.setRecord h.slot (some (granted w ws))).condition w .granted h r.key).answered
                        p f .done (encHandle h ++ bytes16 (r.revision + 1) ++ [byteOf o.val, 1, byteOf w.val])))
            ∧ (r.state = .opened → exec (.revoke p .whole) s = .next ((s.begun p 0).answered p f .notHeld [1]))
            ∧ (r.state = .lapsed → exec (.revoke p .whole) s = .next ((s.begun p 0).answered p f .notHeld [3])))

/-- CANCEL_CLAIM takes the requester out of the queue, the waiters behind it moving forward, or is refused NOT_QUEUED;
RESTORE makes a LAPSED record OPEN and clears safe pending, or is refused NOT_LAPSED with the record's state (R81,
R86). -/
def Obligations.CancelClaimAndRestore : Prop :=
  ∀ (s : State) (p : PortId) (f : List Byte) (a : Agent) (h : Handle) (r : Record),
    parseHandle 0 (frameOptions f) (frameBody f) = some (h, none) → s.Names h r →
    (s.Admits p .cancelClaim f a →
        (a ∉ r.queue → exec (.cancelClaim p .whole) s = .next ((s.begun p a).answered p f .notQueued []))
          ∧ ∀ pre post, r.queue = pre ++ a :: post → a ∉ pre →
              exec (.cancelClaim p .whole) s =
                .next (((s.begun p a).setRecord h.slot (some { r with queue := pre ++ post })).answered p f .done
                  [byteOf (pre.length + 1), byteOf (pre.length + post.length)]))
      ∧ (s.Admits p .restore f 0 →
          (r.state = .lapsed →
              exec (.restore p .whole) s = .next (((s.begun p 0).setRecord h.slot (some { r with
                  state := .opened, safePending := false, revision := r.revision + 1 })).answered p f .done
                (encHandle h ++ bytes16 (r.revision + 1) ++ flag r.safePending)))
            ∧ (r.state = .opened → exec (.restore p .whole) s = .next ((s.begun p 0).answered p f .notLapsed [1]))
            ∧ ∀ o, r.state = .held o → exec (.restore p .whole) s = .next ((s.begun p 0).answered p f .notLapsed [2]))

/-! ### Staging and tuning (chapter 5) -/

/-- STAGE past checks 4 to 8: a value outside the limits is refused with them; in a group whose trigger is not ON_STAGE
the value waits; in an ON_STAGE group it is applied at once, and a changed live value goes to a bound channel and, as
CHANGED, to every watcher but the requester. UNSTAGE withdraws the staged value, or is refused NOTHING_STAGED with the
revision (R90, R92 to R94, R96). -/
def Obligations.StageAndUnstage : Prop :=
  ∀ (s : State) (p : PortId) (f : List Byte) (a : Agent) (h : Handle) (g : Option (BitVec 16)) (r : Record),
    s.Names h r → s.holds a r.cls .stage = true → r.OwnershipPasses .stage a → GuardPasses g r →
    let b := s.begun p a
    (∀ v, s.Admits p .stage f a → parseStage (frameOptions f) (frameBody f) = some (h, v, g) →
        (v.toInt < r.min.toInt ∨ r.max.toInt < v.toInt →
            exec (.stage p .whole) s = .next (b.answered p f .outOfRange (bytes16 r.min ++ bytes16 r.max)))
          ∧ (r.min.toInt ≤ v.toInt → v.toInt ≤ r.max.toInt → (s.group r.group).trigger ≠ .onStage →
              let kept := if a = 0 ∧ r.state = .lapsed then false else r.safePending
              exec (.stage p .whole) s = .next ((b.setRecord h.slot (some { r with
                  staged := some v, safePending := kept, revision := r.revision + 1 })).answered p f .done
                (encHandle h ++ bytes16 (r.revision + 1) ++ [0] ++ flag r.staged.isSome ++ bytes16 r.live
                  ++ flag kept)))
          ∧ (r.min.toInt ≤ v.toInt → v.toInt ≤ r.max.toInt → (s.group r.group).trigger = .onStage →
              let b1 := b.setRecord h.slot (some { r with
                live := v, staged := none, safePending := false, revision := r.revision + 1 })
              let body := encHandle h ++ bytes16 (r.revision + 1) ++ [1] ++ flag r.staged.isSome ++ bytes16 v ++ [0]
              (r.live = v → exec (.stage p .whole) s = .next (b1.answered p f .done body))
                ∧ (r.live ≠ v → r.binding = none →
                    exec (.stage p .whole) s = .next
                      ((b1.conditionAll (r.watchers.erase a) .changed h r.key).answered p f .done body))
                ∧ ∀ c, r.live ≠ v → r.binding = some c →
                    exec (.stage p .whole) s = .next (((b1.notice c .value v).conditionAll (r.watchers.erase a)
                      .changed h r.key).answered p f .done body)))
      ∧ (s.Admits p .unstage f a → parseHandle optGuard (frameOptions f) (frameBody f) = some (h, g) →
          (r.staged = none → exec (.unstage p .whole) s = .next (b.answered p f .nothingStaged (bytes16 r.revision)))
            ∧ ∀ v, r.staged = some v →
                exec (.unstage p .whole) s = .next ((b.setRecord h.slot (some { r with
                    staged := none, revision := r.revision + 1 })).answered p f .done
                  (encHandle h ++ bytes16 (r.revision + 1) ++ bytes16 v)))

/-- TUNE past checks 4 to 8 tests the record as it would stand, in the order limits, live, staged, safe; the first
that fails is refused LIMIT_CONFLICT with the item, the limits that would have stood and the value that failed, and
nothing is written; past the four tests the record written keeps the law of the limits (R98). -/
def Obligations.TuneRefusesLimitConflict : Prop :=
  ∀ (s : State) (p : PortId) (f : List Byte) (a : Agent) (q : TuneFields) (r : Record),
    s.Admits p .tune f a → parseTune (frameOptions f) (frameBody f) = some q → s.Names q.handle r →
    s.holds a r.cls .tune = true → (a = 0 ∨ r.state = .held a) → GuardPasses q.guard r →
    let lo := (q.limits.map (·.1)).getD r.min
    let hi := (q.limits.map (·.2)).getD r.max
    let safe := q.safe.getD r.safe
    let outside : Value → Prop := fun v => v.toInt < lo.toInt ∨ hi.toInt < v.toInt
    let conflict : Byte → Value → Prop := fun item v =>
      exec (.tune p .whole) s =
        .next ((s.begun p a).answered p f .limitConflict ([item] ++ bytes16 lo ++ bytes16 hi ++ bytes16 v))
    (hi.toInt < lo.toInt → conflict 0 lo)
      ∧ (lo.toInt ≤ hi.toInt → outside r.live → conflict 1 r.live)
      ∧ (lo.toInt ≤ hi.toInt → ¬ outside r.live → ∀ v, r.staged = some v → outside v → conflict 2 v)
      ∧ (lo.toInt ≤ hi.toInt → ¬ outside r.live → (∀ v, r.staged = some v → ¬ outside v) → outside safe →
          conflict 3 safe)
      ∧ (lo.toInt ≤ hi.toInt → ¬ outside r.live → (∀ v, r.staged = some v → ¬ outside v) → ¬ outside safe →
          ∃ (t : State) (body : List Byte) (r' : Record), exec (.tune p .whole) s = .next (t.answered p f .done body)
            ∧ t.record q.handle.slot = some r' ∧ r'.LimitsLaw)
      ∧ (s.begun p a).slots = s.slots

/-- An accepted TUNE writes the parts present and advances the revision once; when it moves the record into an
ON_STAGE group, a staged value, else a pending safe value, is applied within the request, and a changed live value
goes to a bound channel and, as CHANGED, to every watcher but the requester (R99, R101, R102). -/
def Obligations.TuneWritesAndApplies : Prop :=
  ∀ (s : State) (p : PortId) (f : List Byte) (a : Agent) (q : TuneFields) (r : Record),
    s.Admits p .tune f a → parseTune (frameOptions f) (frameBody f) = some q → s.Names q.handle r →
    s.holds a r.cls .tune = true → (a = 0 ∨ r.state = .held a) → GuardPasses q.guard r →
    let r1 : Record := { r with
      min := (q.limits.map (·.1)).getD r.min, max := (q.limits.map (·.2)).getD r.max, safe := q.safe.getD r.safe
      policy := q.policy.getD r.policy, group := q.group.getD r.group, revision := r.revision + 1 }
    let body : Record → Bool → List Byte := fun x applied =>
      encHandle q.handle ++ bytes16 x.revision ++ bytes16 x.min ++ bytes16 x.max ++ bytes16 x.safe
        ++ [x.policy.code, byteOf x.group.val] ++ flag x.safePending ++ flag applied
    let b := s.begun p a
    let moved := r1.group ≠ r.group ∧ (s.group r1.group).trigger = .onStage
    r1.LimitsLaw →
      (¬ moved ∨ (r.staged = none ∧ r.safePending = false) →
          exec (.tune p .whole) s = .next ((b.setRecord q.handle.slot (some r1)).answered p f .done (body r1 false)))
        ∧ ∀ v, moved → (r.staged = some v ∨ (r.staged = none ∧ r.safePending = true ∧ v = r1.safe)) →
            let r2 : Record := { r1 with live := v, staged := none, safePending := false }
            let b1 := b.setRecord q.handle.slot (some r2)
            (r.live = v → exec (.tune p .whole) s = .next (b1.answered p f .done (body r2 true)))
              ∧ (r.live ≠ v → r.binding = none →
                  exec (.tune p .whole) s = .next
                    ((b1.conditionAll (r.watchers.erase a) .changed q.handle r.key).answered p f .done (body r2 true)))
              ∧ ∀ c, r.live ≠ v → r.binding = some c →
                  exec (.tune p .whole) s = .next (((b1.notice c .value v).conditionAll (r.watchers.erase a) .changed
                    q.handle r.key).answered p f .done (body r2 true))

/-! ### Groups (chapter 6) -/

/-- APPLY: refused NO_RIGHT unless the sender is agent 0 or in the apply-agent set of every named group, then
WRONG_TRIGGER from an agent other than 0 with the lowest named group that is not COMMAND; else every named group is
marked pending. SET_GROUP writes the configuration, loads the counter, raises an apply event for ON_STAGE, and reports
the previous configuration (R111 to R114). -/
def Obligations.ApplyAndSetGroup : Prop :=
  ∀ (s : State) (p : PortId) (f : List Byte) (a : Agent),
    (∀ gs : GroupSet, s.Admits p .apply f a → parseGroupSet (frameOptions f) (frameBody f) = some gs →
        ((a ≠ 0 ∧ ∃ g, gs.mem g = true ∧ (s.group g).applyAgents.mem a = false) →
            exec (.apply p .whole) s = .next ((s.begun p a).answered p f .noRight []))
          ∧ (∀ g, a ≠ 0 → (∀ d, gs.mem d = true → (s.group d).applyAgents.mem a = true) → gs.mem g = true →
              (s.group g).trigger ≠ .command → (∀ d, d < g → gs.mem d = true → (s.group d).trigger = .command) →
              exec (.apply p .whole) s = .next ((s.begun p a).answered p f .wrongTrigger
                [byteOf g.val, (s.group g).trigger.code]))
          ∧ ((a = 0 ∨ ∀ g, gs.mem g = true →
                (s.group g).applyAgents.mem a = true ∧ (s.group g).trigger = .command) →
              ∃ (t : State) (already : GroupSet), exec (.apply p .whole) s = .next (t.answered p f .done [already.toByte])
                ∧ t = { s.begun p a with groups := t.groups }
                ∧ ∀ g, t.group g = { (s.group g) with pending := (s.group g).pending || gs.mem g }
                  ∧ already.mem g = ((s.group g).pending && gs.mem g)))
      ∧ ∀ q : GroupFields, s.Admits p .setGroup f 0 → parseSetGroup (frameOptions f) (frameBody f) = some q →
          let old := s.group q.group
          let now := old.pending || q.trigger == .onStage
          exec (.setGroup p .whole) s = .next (((s.begun p 0).setGroup q.group
              { trigger := q.trigger, strobe := q.strobe, period := q.period, applyAgents := q.applyAgents
                pending := now, counter := if q.trigger = .period then some q.period else none }).answered p f .done
            ([old.trigger.code, byteOf old.strobe.val] ++ bytesOf16 old.period ++ [old.applyAgents.toByte] ++ flag now))

/-! ### Watches (chapter 7) -/

/-- WATCH adds the requester to the watcher set; UNWATCH removes it, or is refused NOT_WATCHING (R126, R127). -/
def Obligations.WatchAndUnwatch : Prop :=
  ∀ (s : State) (p : PortId) (f : List Byte) (a : Agent) (h : Handle) (r : Record),
    parseHandle 0 (frameOptions f) (frameBody f) = some (h, none) → s.Names h r →
    (s.Admits p .watch f a → s.holds a r.cls .watch = true →
        exec (.watch p .whole) s = .next (((s.begun p a).setRecord h.slot (some { r with
            watchers := r.watchers.insert a })).answered p f .done
          (encHandle h ++ [r.state.code] ++ bytes16 r.live ++ bytes16 r.revision ++ flag (r.watchers.mem a))))
      ∧ (s.Admits p .unwatch f a →
          (r.watchers.mem a = false →
              exec (.unwatch p .whole) s = .next ((s.begun p a).answered p f .notWatching []))
            ∧ (r.watchers.mem a = true →
                exec (.unwatch p .whole) s = .next (((s.begun p a).setRecord h.slot (some { r with
                    watchers := r.watchers.erase a })).answered p f .done (encHandle h))))

/-- FETCH_ATTENTION reports and clears the sender's flags, removes and reports the first eight entries of its list, and
counts those that remain; agent 0's fetch reports and clears LINK_STALLED and the lost-agent set (R134, R135). -/
def Obligations.FetchTakesTheHeadOfTheList : Prop :=
  ∀ (s : State) (p : PortId) (f : List Byte) (a : Agent), s.Admits p .fetchAttention f a → frameOptions f = 0 →
    frameBody f = [] →
    let row := (s.begun p a).row a
    let entries := ((row.attention.take 8).map fun e =>
      [byteOf e.handle.slot.val, e.handle.inc] ++ bytes16 e.key ++ [e.reasons.toByte]).flatten
    let tail := [byteOf (min 8 row.attention.length)] ++ entries ++ [byteOf (row.attention.length - 8)]
    let t := (s.begun p a).setRow a { row with overflow := false, attention := row.attention.drop 8 }
    (a ≠ 0 → exec (.fetchAttention p .whole) s =
        .next (t.answered p f .done ([if row.overflow then 1 else 0, 0] ++ tail)))
      ∧ (a = 0 → exec (.fetchAttention p .whole) s =
          .next (({ t with linkStalled := false, lostAgents := FinSet.empty 8 } : State).answered p f .done
            ([(if row.overflow then 1 else 0) ||| (if s.linkStalled then 2 else 0), s.lostAgents.toByte] ++ tail)))

/-! ### Output channels (chapter 8) -/

/-- BIND: refused CHANNEL_BUSY when the channel is bound, then BOUND when the record is; else both sides are joined and
the live value is driven and queued. UNBIND removes both sides and queues the park value, or finds the channel unbound.
SET_PARK writes the park value and, on an unbound channel, drives and queues it (R142 to R145). How the bodies write
items never absent is the model's reading (log 10). -/
def Obligations.BindUnbindSetPark : Prop :=
  ∀ (s : State) (p : PortId) (f : List Byte) (c : ChannelNo),
    let b := s.begun p 0
    let ch := s.channel c
    (∀ h r, s.Admits p .bind f 0 → parseBind (frameOptions f) (frameBody f) = some (c, h) → s.Names h r →
        (∀ j, ch.binding = some j → exec (.bind p .whole) s = .next (b.answered p f .channelBusy
            [byteOf j.val, (s.slots.get j).inc]))
          ∧ (ch.binding = none → ∀ d, r.binding = some d →
              exec (.bind p .whole) s = .next (b.answered p f .bound [byteOf d.val]))
          ∧ (ch.binding = none → r.binding = none →
              exec (.bind p .whole) s = .next ((((b.setRecord h.slot (some { r with
                  binding := some c, revision := r.revision + 1 })).setChannel c { ch with
                    binding := some h.slot }).notice c .value r.live).answered p f .done
                (encHandle h ++ bytes16 (r.revision + 1) ++ [byteOf c.val] ++ bytes16 r.live ++ bytes16 ch.acked))))
      ∧ (s.Admits p .unbind f 0 → parseChannel (frameOptions f) (frameBody f) = some c →
          (ch.binding = none → exec (.unbind p .whole) s = .next (b.answered p f .done [0]))
            ∧ ∀ i r, ch.binding = some i → s.record i = some r →
                exec (.unbind p .whole) s = .next ((((b.setRecord i (some { r with
                    binding := none, revision := r.revision + 1 })).setChannel c { ch with
                      binding := none }).notice c .parked ch.park).answered p f .done
                  ([1, byteOf i.val, (s.slots.get i).inc] ++ bytes16 (r.revision + 1) ++ bytes16 ch.park)))
      ∧ ∀ v, s.Admits p .setPark f 0 → parseSetPark (frameOptions f) (frameBody f) = some (c, v) →
          (ch.binding ≠ none → exec (.setPark p .whole) s =
              .next ((b.setChannel c { ch with park := v }).answered p f .done
                ([byteOf c.val] ++ bytes16 ch.park ++ [0])))
            ∧ (ch.binding = none → exec (.setPark p .whole) s =
                .next (((b.setChannel c { ch with park := v }).notice c .parked v).answered p f .done
                  ([byteOf c.val] ++ bytes16 ch.park ++ [1])))

/-- LINK_RESUME in STALLED sends the same frame again from attempt 1 and leaves LINK_STALLED as it was; in the other
states it is refused NOT_STALLED with the state (R153). How the body writes the frame is the model's reading (log 10). -/
def Obligations.LinkResumeRestartsTheFrame : Prop :=
  ∀ (s : State) (p : PortId) (f : List Byte), s.Admits p .linkResume f 0 → frameOptions f = 0 → frameBody f = [] →
    (∀ u, s.link = .stalled u →
        exec (.linkResume p .whole) s = .next (({ s.begun p 0 with link := .sending u 1 } : State).answered p f .done
          ([byteOf u.channel.val, if u.kind = .parked then 1 else 0] ++ bytes16 u.value
            ++ [byteOf s.updateQueue.length])))
      ∧ (s.link = .idle → exec (.linkResume p .whole) s = .next ((s.begun p 0).answered p f .notStalled [0]))
      ∧ (∀ u n, s.link = .sending u n →
          exec (.linkResume p .whole) s = .next ((s.begun p 0).answered p f .notStalled [1]))
      ∧ ∀ u n m, s.link = .awaitAck u n m →
          exec (.linkResume p .whole) s = .next ((s.begun p 0).answered p f .notStalled [2])

end
end

