-- ==== Sys2Proof/Laws/State.lean ====
section
/-! SUPPORT. What each update of the state leaves as it was: one lemma per field per update, true by rfl. -/
namespace Sys2Proof.Machine

/-! ### setRecord -/
@[simp] theorem State.setRecord_phase (s : State) (i : SlotNo) (r : Option Record) : (s.setRecord i r).phase = s.phase := rfl
@[simp] theorem State.setRecord_keyIndex (s : State) (i : SlotNo) (r : Option Record) : (s.setRecord i r).keyIndex = s.keyIndex := rfl
@[simp] theorem State.setRecord_freeList (s : State) (i : SlotNo) (r : Option Record) : (s.setRecord i r).freeList = s.freeList := rfl
@[simp] theorem State.setRecord_rights (s : State) (i : SlotNo) (r : Option Record) : (s.setRecord i r).rights = s.rights := rfl
@[simp] theorem State.setRecord_agents (s : State) (i : SlotNo) (r : Option Record) : (s.setRecord i r).agents = s.agents := rfl
@[simp] theorem State.setRecord_linkStalled (s : State) (i : SlotNo) (r : Option Record) : (s.setRecord i r).linkStalled = s.linkStalled := rfl
@[simp] theorem State.setRecord_lostAgents (s : State) (i : SlotNo) (r : Option Record) : (s.setRecord i r).lostAgents = s.lostAgents := rfl
@[simp] theorem State.setRecord_groups (s : State) (i : SlotNo) (r : Option Record) : (s.setRecord i r).groups = s.groups := rfl
@[simp] theorem State.setRecord_sweep (s : State) (i : SlotNo) (r : Option Record) : (s.setRecord i r).sweep = s.sweep := rfl
@[simp] theorem State.setRecord_applyLevels (s : State) (i : SlotNo) (r : Option Record) : (s.setRecord i r).applyLevels = s.applyLevels := rfl
@[simp] theorem State.setRecord_channels (s : State) (i : SlotNo) (r : Option Record) : (s.setRecord i r).channels = s.channels := rfl
@[simp] theorem State.setRecord_updateQueue (s : State) (i : SlotNo) (r : Option Record) : (s.setRecord i r).updateQueue = s.updateQueue := rfl
@[simp] theorem State.setRecord_link (s : State) (i : SlotNo) (r : Option Record) : (s.setRecord i r).link = s.link := rfl
@[simp] theorem State.setRecord_uldat (s : State) (i : SlotNo) (r : Option Record) : (s.setRecord i r).uldat = s.uldat := rfl
@[simp] theorem State.setRecord_ports (s : State) (i : SlotNo) (r : Option Record) : (s.setRecord i r).ports = s.ports := rfl
@[simp] theorem State.setRecord_pointer (s : State) (i : SlotNo) (r : Option Record) : (s.setRecord i r).pointer = s.pointer := rfl
@[simp] theorem State.setRecord_engine (s : State) (i : SlotNo) (r : Option Record) : (s.setRecord i r).engine = s.engine := rfl
@[simp] theorem State.setRecord_freeDraws (s : State) (i : SlotNo) (r : Option Record) : (s.setRecord i r).freeDraws = s.freeDraws := rfl
@[simp] theorem State.setRecord_pending (s : State) (i : SlotNo) (r : Option Record) : (s.setRecord i r).pending = s.pending := rfl

/-! ### setRow -/
@[simp] theorem State.setRow_phase (s : State) (a : Agent) (r : AgentRow) : (s.setRow a r).phase = s.phase := rfl
@[simp] theorem State.setRow_slots (s : State) (a : Agent) (r : AgentRow) : (s.setRow a r).slots = s.slots := rfl
@[simp] theorem State.setRow_keyIndex (s : State) (a : Agent) (r : AgentRow) : (s.setRow a r).keyIndex = s.keyIndex := rfl
@[simp] theorem State.setRow_freeList (s : State) (a : Agent) (r : AgentRow) : (s.setRow a r).freeList = s.freeList := rfl
@[simp] theorem State.setRow_rights (s : State) (a : Agent) (r : AgentRow) : (s.setRow a r).rights = s.rights := rfl
@[simp] theorem State.setRow_linkStalled (s : State) (a : Agent) (r : AgentRow) : (s.setRow a r).linkStalled = s.linkStalled := rfl
@[simp] theorem State.setRow_lostAgents (s : State) (a : Agent) (r : AgentRow) : (s.setRow a r).lostAgents = s.lostAgents := rfl
@[simp] theorem State.setRow_groups (s : State) (a : Agent) (r : AgentRow) : (s.setRow a r).groups = s.groups := rfl
@[simp] theorem State.setRow_sweep (s : State) (a : Agent) (r : AgentRow) : (s.setRow a r).sweep = s.sweep := rfl
@[simp] theorem State.setRow_applyLevels (s : State) (a : Agent) (r : AgentRow) : (s.setRow a r).applyLevels = s.applyLevels := rfl
@[simp] theorem State.setRow_channels (s : State) (a : Agent) (r : AgentRow) : (s.setRow a r).channels = s.channels := rfl
@[simp] theorem State.setRow_updateQueue (s : State) (a : Agent) (r : AgentRow) : (s.setRow a r).updateQueue = s.updateQueue := rfl
@[simp] theorem State.setRow_link (s : State) (a : Agent) (r : AgentRow) : (s.setRow a r).link = s.link := rfl
@[simp] theorem State.setRow_uldat (s : State) (a : Agent) (r : AgentRow) : (s.setRow a r).uldat = s.uldat := rfl
@[simp] theorem State.setRow_ports (s : State) (a : Agent) (r : AgentRow) : (s.setRow a r).ports = s.ports := rfl
@[simp] theorem State.setRow_pointer (s : State) (a : Agent) (r : AgentRow) : (s.setRow a r).pointer = s.pointer := rfl
@[simp] theorem State.setRow_engine (s : State) (a : Agent) (r : AgentRow) : (s.setRow a r).engine = s.engine := rfl
@[simp] theorem State.setRow_freeDraws (s : State) (a : Agent) (r : AgentRow) : (s.setRow a r).freeDraws = s.freeDraws := rfl
@[simp] theorem State.setRow_pending (s : State) (a : Agent) (r : AgentRow) : (s.setRow a r).pending = s.pending := rfl

/-! ### setGroup -/
@[simp] theorem State.setGroup_phase (s : State) (g : GroupNo) (r : Group) : (s.setGroup g r).phase = s.phase := rfl
@[simp] theorem State.setGroup_slots (s : State) (g : GroupNo) (r : Group) : (s.setGroup g r).slots = s.slots := rfl
@[simp] theorem State.setGroup_keyIndex (s : State) (g : GroupNo) (r : Group) : (s.setGroup g r).keyIndex = s.keyIndex := rfl
@[simp] theorem State.setGroup_freeList (s : State) (g : GroupNo) (r : Group) : (s.setGroup g r).freeList = s.freeList := rfl
@[simp] theorem State.setGroup_rights (s : State) (g : GroupNo) (r : Group) : (s.setGroup g r).rights = s.rights := rfl
@[simp] theorem State.setGroup_agents (s : State) (g : GroupNo) (r : Group) : (s.setGroup g r).agents = s.agents := rfl
@[simp] theorem State.setGroup_linkStalled (s : State) (g : GroupNo) (r : Group) : (s.setGroup g r).linkStalled = s.linkStalled := rfl
@[simp] theorem State.setGroup_lostAgents (s : State) (g : GroupNo) (r : Group) : (s.setGroup g r).lostAgents = s.lostAgents := rfl
@[simp] theorem State.setGroup_sweep (s : State) (g : GroupNo) (r : Group) : (s.setGroup g r).sweep = s.sweep := rfl
@[simp] theorem State.setGroup_applyLevels (s : State) (g : GroupNo) (r : Group) : (s.setGroup g r).applyLevels = s.applyLevels := rfl
@[simp] theorem State.setGroup_channels (s : State) (g : GroupNo) (r : Group) : (s.setGroup g r).channels = s.channels := rfl
@[simp] theorem State.setGroup_updateQueue (s : State) (g : GroupNo) (r : Group) : (s.setGroup g r).updateQueue = s.updateQueue := rfl
@[simp] theorem State.setGroup_link (s : State) (g : GroupNo) (r : Group) : (s.setGroup g r).link = s.link := rfl
@[simp] theorem State.setGroup_uldat (s : State) (g : GroupNo) (r : Group) : (s.setGroup g r).uldat = s.uldat := rfl
@[simp] theorem State.setGroup_ports (s : State) (g : GroupNo) (r : Group) : (s.setGroup g r).ports = s.ports := rfl
@[simp] theorem State.setGroup_pointer (s : State) (g : GroupNo) (r : Group) : (s.setGroup g r).pointer = s.pointer := rfl
@[simp] theorem State.setGroup_engine (s : State) (g : GroupNo) (r : Group) : (s.setGroup g r).engine = s.engine := rfl
@[simp] theorem State.setGroup_freeDraws (s : State) (g : GroupNo) (r : Group) : (s.setGroup g r).freeDraws = s.freeDraws := rfl
@[simp] theorem State.setGroup_pending (s : State) (g : GroupNo) (r : Group) : (s.setGroup g r).pending = s.pending := rfl

/-! ### setChannel -/
@[simp] theorem State.setChannel_phase (s : State) (c : ChannelNo) (r : Channel) : (s.setChannel c r).phase = s.phase := rfl
@[simp] theorem State.setChannel_slots (s : State) (c : ChannelNo) (r : Channel) : (s.setChannel c r).slots = s.slots := rfl
@[simp] theorem State.setChannel_keyIndex (s : State) (c : ChannelNo) (r : Channel) : (s.setChannel c r).keyIndex = s.keyIndex := rfl
@[simp] theorem State.setChannel_freeList (s : State) (c : ChannelNo) (r : Channel) : (s.setChannel c r).freeList = s.freeList := rfl
@[simp] theorem State.setChannel_rights (s : State) (c : ChannelNo) (r : Channel) : (s.setChannel c r).rights = s.rights := rfl
@[simp] theorem State.setChannel_agents (s : State) (c : ChannelNo) (r : Channel) : (s.setChannel c r).agents = s.agents := rfl
@[simp] theorem State.setChannel_linkStalled (s : State) (c : ChannelNo) (r : Channel) : (s.setChannel c r).linkStalled = s.linkStalled := rfl
@[simp] theorem State.setChannel_lostAgents (s : State) (c : ChannelNo) (r : Channel) : (s.setChannel c r).lostAgents = s.lostAgents := rfl
@[simp] theorem State.setChannel_groups (s : State) (c : ChannelNo) (r : Channel) : (s.setChannel c r).groups = s.groups := rfl
@[simp] theorem State.setChannel_sweep (s : State) (c : ChannelNo) (r : Channel) : (s.setChannel c r).sweep = s.sweep := rfl
@[simp] theorem State.setChannel_applyLevels (s : State) (c : ChannelNo) (r : Channel) : (s.setChannel c r).applyLevels = s.applyLevels := rfl
@[simp] theorem State.setChannel_updateQueue (s : State) (c : ChannelNo) (r : Channel) : (s.setChannel c r).updateQueue = s.updateQueue := rfl
@[simp] theorem State.setChannel_link (s : State) (c : ChannelNo) (r : Channel) : (s.setChannel c r).link = s.link := rfl
@[simp] theorem State.setChannel_uldat (s : State) (c : ChannelNo) (r : Channel) : (s.setChannel c r).uldat = s.uldat := rfl
@[simp] theorem State.setChannel_ports (s : State) (c : ChannelNo) (r : Channel) : (s.setChannel c r).ports = s.ports := rfl
@[simp] theorem State.setChannel_pointer (s : State) (c : ChannelNo) (r : Channel) : (s.setChannel c r).pointer = s.pointer := rfl
@[simp] theorem State.setChannel_engine (s : State) (c : ChannelNo) (r : Channel) : (s.setChannel c r).engine = s.engine := rfl
@[simp] theorem State.setChannel_freeDraws (s : State) (c : ChannelNo) (r : Channel) : (s.setChannel c r).freeDraws = s.freeDraws := rfl
@[simp] theorem State.setChannel_pending (s : State) (c : ChannelNo) (r : Channel) : (s.setChannel c r).pending = s.pending := rfl

/-! ### setPort -/
@[simp] theorem State.setPort_phase (s : State) (p : PortId) (q : Port) : (s.setPort p q).phase = s.phase := rfl
@[simp] theorem State.setPort_slots (s : State) (p : PortId) (q : Port) : (s.setPort p q).slots = s.slots := rfl
@[simp] theorem State.setPort_keyIndex (s : State) (p : PortId) (q : Port) : (s.setPort p q).keyIndex = s.keyIndex := rfl
@[simp] theorem State.setPort_freeList (s : State) (p : PortId) (q : Port) : (s.setPort p q).freeList = s.freeList := rfl
@[simp] theorem State.setPort_rights (s : State) (p : PortId) (q : Port) : (s.setPort p q).rights = s.rights := rfl
@[simp] theorem State.setPort_agents (s : State) (p : PortId) (q : Port) : (s.setPort p q).agents = s.agents := rfl
@[simp] theorem State.setPort_linkStalled (s : State) (p : PortId) (q : Port) : (s.setPort p q).linkStalled = s.linkStalled := rfl
@[simp] theorem State.setPort_lostAgents (s : State) (p : PortId) (q : Port) : (s.setPort p q).lostAgents = s.lostAgents := rfl
@[simp] theorem State.setPort_groups (s : State) (p : PortId) (q : Port) : (s.setPort p q).groups = s.groups := rfl
@[simp] theorem State.setPort_sweep (s : State) (p : PortId) (q : Port) : (s.setPort p q).sweep = s.sweep := rfl
@[simp] theorem State.setPort_applyLevels (s : State) (p : PortId) (q : Port) : (s.setPort p q).applyLevels = s.applyLevels := rfl
@[simp] theorem State.setPort_channels (s : State) (p : PortId) (q : Port) : (s.setPort p q).channels = s.channels := rfl
@[simp] theorem State.setPort_updateQueue (s : State) (p : PortId) (q : Port) : (s.setPort p q).updateQueue = s.updateQueue := rfl
@[simp] theorem State.setPort_link (s : State) (p : PortId) (q : Port) : (s.setPort p q).link = s.link := rfl
@[simp] theorem State.setPort_uldat (s : State) (p : PortId) (q : Port) : (s.setPort p q).uldat = s.uldat := rfl
@[simp] theorem State.setPort_pointer (s : State) (p : PortId) (q : Port) : (s.setPort p q).pointer = s.pointer := rfl
@[simp] theorem State.setPort_engine (s : State) (p : PortId) (q : Port) : (s.setPort p q).engine = s.engine := rfl
@[simp] theorem State.setPort_freeDraws (s : State) (p : PortId) (q : Port) : (s.setPort p q).freeDraws = s.freeDraws := rfl
@[simp] theorem State.setPort_pending (s : State) (p : PortId) (q : Port) : (s.setPort p q).pending = s.pending := rfl

/-! ### setTxn -/
@[simp] theorem State.setTxn_phase (s : State) (p : PortId) (t : Txn) : (s.setTxn p t).phase = s.phase := rfl
@[simp] theorem State.setTxn_slots (s : State) (p : PortId) (t : Txn) : (s.setTxn p t).slots = s.slots := rfl
@[simp] theorem State.setTxn_keyIndex (s : State) (p : PortId) (t : Txn) : (s.setTxn p t).keyIndex = s.keyIndex := rfl
@[simp] theorem State.setTxn_freeList (s : State) (p : PortId) (t : Txn) : (s.setTxn p t).freeList = s.freeList := rfl
@[simp] theorem State.setTxn_rights (s : State) (p : PortId) (t : Txn) : (s.setTxn p t).rights = s.rights := rfl
@[simp] theorem State.setTxn_agents (s : State) (p : PortId) (t : Txn) : (s.setTxn p t).agents = s.agents := rfl
@[simp] theorem State.setTxn_linkStalled (s : State) (p : PortId) (t : Txn) : (s.setTxn p t).linkStalled = s.linkStalled := rfl
@[simp] theorem State.setTxn_lostAgents (s : State) (p : PortId) (t : Txn) : (s.setTxn p t).lostAgents = s.lostAgents := rfl
@[simp] theorem State.setTxn_groups (s : State) (p : PortId) (t : Txn) : (s.setTxn p t).groups = s.groups := rfl
@[simp] theorem State.setTxn_sweep (s : State) (p : PortId) (t : Txn) : (s.setTxn p t).sweep = s.sweep := rfl
@[simp] theorem State.setTxn_applyLevels (s : State) (p : PortId) (t : Txn) : (s.setTxn p t).applyLevels = s.applyLevels := rfl
@[simp] theorem State.setTxn_channels (s : State) (p : PortId) (t : Txn) : (s.setTxn p t).channels = s.channels := rfl
@[simp] theorem State.setTxn_updateQueue (s : State) (p : PortId) (t : Txn) : (s.setTxn p t).updateQueue = s.updateQueue := rfl
@[simp] theorem State.setTxn_link (s : State) (p : PortId) (t : Txn) : (s.setTxn p t).link = s.link := rfl
@[simp] theorem State.setTxn_uldat (s : State) (p : PortId) (t : Txn) : (s.setTxn p t).uldat = s.uldat := rfl
@[simp] theorem State.setTxn_pointer (s : State) (p : PortId) (t : Txn) : (s.setTxn p t).pointer = s.pointer := rfl
@[simp] theorem State.setTxn_engine (s : State) (p : PortId) (t : Txn) : (s.setTxn p t).engine = s.engine := rfl
@[simp] theorem State.setTxn_freeDraws (s : State) (p : PortId) (t : Txn) : (s.setTxn p t).freeDraws = s.freeDraws := rfl
@[simp] theorem State.setTxn_pending (s : State) (p : PortId) (t : Txn) : (s.setTxn p t).pending = s.pending := rfl

/-! ### notice -/
@[simp] theorem State.notice_phase (s : State) (c : ChannelNo) (k : UpdKind) (v : Value) : (s.notice c k v).phase = s.phase := rfl
@[simp] theorem State.notice_slots (s : State) (c : ChannelNo) (k : UpdKind) (v : Value) : (s.notice c k v).slots = s.slots := rfl
@[simp] theorem State.notice_keyIndex (s : State) (c : ChannelNo) (k : UpdKind) (v : Value) : (s.notice c k v).keyIndex = s.keyIndex := rfl
@[simp] theorem State.notice_freeList (s : State) (c : ChannelNo) (k : UpdKind) (v : Value) : (s.notice c k v).freeList = s.freeList := rfl
@[simp] theorem State.notice_rights (s : State) (c : ChannelNo) (k : UpdKind) (v : Value) : (s.notice c k v).rights = s.rights := rfl
@[simp] theorem State.notice_agents (s : State) (c : ChannelNo) (k : UpdKind) (v : Value) : (s.notice c k v).agents = s.agents := rfl
@[simp] theorem State.notice_linkStalled (s : State) (c : ChannelNo) (k : UpdKind) (v : Value) : (s.notice c k v).linkStalled = s.linkStalled := rfl
@[simp] theorem State.notice_lostAgents (s : State) (c : ChannelNo) (k : UpdKind) (v : Value) : (s.notice c k v).lostAgents = s.lostAgents := rfl
@[simp] theorem State.notice_groups (s : State) (c : ChannelNo) (k : UpdKind) (v : Value) : (s.notice c k v).groups = s.groups := rfl
@[simp] theorem State.notice_sweep (s : State) (c : ChannelNo) (k : UpdKind) (v : Value) : (s.notice c k v).sweep = s.sweep := rfl
@[simp] theorem State.notice_applyLevels (s : State) (c : ChannelNo) (k : UpdKind) (v : Value) : (s.notice c k v).applyLevels = s.applyLevels := rfl
@[simp] theorem State.notice_link (s : State) (c : ChannelNo) (k : UpdKind) (v : Value) : (s.notice c k v).link = s.link := rfl
@[simp] theorem State.notice_uldat (s : State) (c : ChannelNo) (k : UpdKind) (v : Value) : (s.notice c k v).uldat = s.uldat := rfl
@[simp] theorem State.notice_ports (s : State) (c : ChannelNo) (k : UpdKind) (v : Value) : (s.notice c k v).ports = s.ports := rfl
@[simp] theorem State.notice_pointer (s : State) (c : ChannelNo) (k : UpdKind) (v : Value) : (s.notice c k v).pointer = s.pointer := rfl
@[simp] theorem State.notice_engine (s : State) (c : ChannelNo) (k : UpdKind) (v : Value) : (s.notice c k v).engine = s.engine := rfl
@[simp] theorem State.notice_freeDraws (s : State) (c : ChannelNo) (k : UpdKind) (v : Value) : (s.notice c k v).freeDraws = s.freeDraws := rfl
@[simp] theorem State.notice_pending (s : State) (c : ChannelNo) (k : UpdKind) (v : Value) : (s.notice c k v).pending = s.pending := rfl

/-! ### parkChannel -/
@[simp] theorem State.parkChannel_phase (s : State) (c : ChannelNo) : (s.parkChannel c).phase = s.phase := rfl
@[simp] theorem State.parkChannel_slots (s : State) (c : ChannelNo) : (s.parkChannel c).slots = s.slots := rfl
@[simp] theorem State.parkChannel_keyIndex (s : State) (c : ChannelNo) : (s.parkChannel c).keyIndex = s.keyIndex := rfl
@[simp] theorem State.parkChannel_freeList (s : State) (c : ChannelNo) : (s.parkChannel c).freeList = s.freeList := rfl
@[simp] theorem State.parkChannel_rights (s : State) (c : ChannelNo) : (s.parkChannel c).rights = s.rights := rfl
@[simp] theorem State.parkChannel_agents (s : State) (c : ChannelNo) : (s.parkChannel c).agents = s.agents := rfl
@[simp] theorem State.parkChannel_linkStalled (s : State) (c : ChannelNo) : (s.parkChannel c).linkStalled = s.linkStalled := rfl
@[simp] theorem State.parkChannel_lostAgents (s : State) (c : ChannelNo) : (s.parkChannel c).lostAgents = s.lostAgents := rfl
@[simp] theorem State.parkChannel_groups (s : State) (c : ChannelNo) : (s.parkChannel c).groups = s.groups := rfl
@[simp] theorem State.parkChannel_sweep (s : State) (c : ChannelNo) : (s.parkChannel c).sweep = s.sweep := rfl
@[simp] theorem State.parkChannel_applyLevels (s : State) (c : ChannelNo) : (s.parkChannel c).applyLevels = s.applyLevels := rfl
@[simp] theorem State.parkChannel_link (s : State) (c : ChannelNo) : (s.parkChannel c).link = s.link := rfl
@[simp] theorem State.parkChannel_uldat (s : State) (c : ChannelNo) : (s.parkChannel c).uldat = s.uldat := rfl
@[simp] theorem State.parkChannel_ports (s : State) (c : ChannelNo) : (s.parkChannel c).ports = s.ports := rfl
@[simp] theorem State.parkChannel_pointer (s : State) (c : ChannelNo) : (s.parkChannel c).pointer = s.pointer := rfl
@[simp] theorem State.parkChannel_engine (s : State) (c : ChannelNo) : (s.parkChannel c).engine = s.engine := rfl
@[simp] theorem State.parkChannel_freeDraws (s : State) (c : ChannelNo) : (s.parkChannel c).freeDraws = s.freeDraws := rfl
@[simp] theorem State.parkChannel_pending (s : State) (c : ChannelNo) : (s.parkChannel c).pending = s.pending := rfl

/-! ### condition -/
@[simp] theorem State.condition_phase (s : State) (a : Agent) (r : Reason) (h : Handle) (k : Key) : (s.condition a r h k).phase = s.phase := rfl
@[simp] theorem State.condition_slots (s : State) (a : Agent) (r : Reason) (h : Handle) (k : Key) : (s.condition a r h k).slots = s.slots := rfl
@[simp] theorem State.condition_keyIndex (s : State) (a : Agent) (r : Reason) (h : Handle) (k : Key) : (s.condition a r h k).keyIndex = s.keyIndex := rfl
@[simp] theorem State.condition_freeList (s : State) (a : Agent) (r : Reason) (h : Handle) (k : Key) : (s.condition a r h k).freeList = s.freeList := rfl
@[simp] theorem State.condition_rights (s : State) (a : Agent) (r : Reason) (h : Handle) (k : Key) : (s.condition a r h k).rights = s.rights := rfl
@[simp] theorem State.condition_linkStalled (s : State) (a : Agent) (r : Reason) (h : Handle) (k : Key) : (s.condition a r h k).linkStalled = s.linkStalled := rfl
@[simp] theorem State.condition_lostAgents (s : State) (a : Agent) (r : Reason) (h : Handle) (k : Key) : (s.condition a r h k).lostAgents = s.lostAgents := rfl
@[simp] theorem State.condition_groups (s : State) (a : Agent) (r : Reason) (h : Handle) (k : Key) : (s.condition a r h k).groups = s.groups := rfl
@[simp] theorem State.condition_sweep (s : State) (a : Agent) (r : Reason) (h : Handle) (k : Key) : (s.condition a r h k).sweep = s.sweep := rfl
@[simp] theorem State.condition_applyLevels (s : State) (a : Agent) (r : Reason) (h : Handle) (k : Key) : (s.condition a r h k).applyLevels = s.applyLevels := rfl
@[simp] theorem State.condition_channels (s : State) (a : Agent) (r : Reason) (h : Handle) (k : Key) : (s.condition a r h k).channels = s.channels := rfl
@[simp] theorem State.condition_updateQueue (s : State) (a : Agent) (r : Reason) (h : Handle) (k : Key) : (s.condition a r h k).updateQueue = s.updateQueue := rfl
@[simp] theorem State.condition_link (s : State) (a : Agent) (r : Reason) (h : Handle) (k : Key) : (s.condition a r h k).link = s.link := rfl
@[simp] theorem State.condition_uldat (s : State) (a : Agent) (r : Reason) (h : Handle) (k : Key) : (s.condition a r h k).uldat = s.uldat := rfl
@[simp] theorem State.condition_ports (s : State) (a : Agent) (r : Reason) (h : Handle) (k : Key) : (s.condition a r h k).ports = s.ports := rfl
@[simp] theorem State.condition_pointer (s : State) (a : Agent) (r : Reason) (h : Handle) (k : Key) : (s.condition a r h k).pointer = s.pointer := rfl
@[simp] theorem State.condition_engine (s : State) (a : Agent) (r : Reason) (h : Handle) (k : Key) : (s.condition a r h k).engine = s.engine := rfl
@[simp] theorem State.condition_freeDraws (s : State) (a : Agent) (r : Reason) (h : Handle) (k : Key) : (s.condition a r h k).freeDraws = s.freeDraws := rfl
@[simp] theorem State.condition_pending (s : State) (a : Agent) (r : Reason) (h : Handle) (k : Key) : (s.condition a r h k).pending = s.pending := rfl

/-! ### conditionAll -/
@[simp] theorem State.conditionAll_phase (s : State) (who : AgentSet) (r : Reason) (h : Handle) (k : Key) : (s.conditionAll who r h k).phase = s.phase := rfl
@[simp] theorem State.conditionAll_slots (s : State) (who : AgentSet) (r : Reason) (h : Handle) (k : Key) : (s.conditionAll who r h k).slots = s.slots := rfl
@[simp] theorem State.conditionAll_keyIndex (s : State) (who : AgentSet) (r : Reason) (h : Handle) (k : Key) : (s.conditionAll who r h k).keyIndex = s.keyIndex := rfl
@[simp] theorem State.conditionAll_freeList (s : State) (who : AgentSet) (r : Reason) (h : Handle) (k : Key) : (s.conditionAll who r h k).freeList = s.freeList := rfl
@[simp] theorem State.conditionAll_rights (s : State) (who : AgentSet) (r : Reason) (h : Handle) (k : Key) : (s.conditionAll who r h k).rights = s.rights := rfl
@[simp] theorem State.conditionAll_linkStalled (s : State) (who : AgentSet) (r : Reason) (h : Handle) (k : Key) : (s.conditionAll who r h k).linkStalled = s.linkStalled := rfl
@[simp] theorem State.conditionAll_lostAgents (s : State) (who : AgentSet) (r : Reason) (h : Handle) (k : Key) : (s.conditionAll who r h k).lostAgents = s.lostAgents := rfl
@[simp] theorem State.conditionAll_groups (s : State) (who : AgentSet) (r : Reason) (h : Handle) (k : Key) : (s.conditionAll who r h k).groups = s.groups := rfl
@[simp] theorem State.conditionAll_sweep (s : State) (who : AgentSet) (r : Reason) (h : Handle) (k : Key) : (s.conditionAll who r h k).sweep = s.sweep := rfl
@[simp] theorem State.conditionAll_applyLevels (s : State) (who : AgentSet) (r : Reason) (h : Handle) (k : Key) : (s.conditionAll who r h k).applyLevels = s.applyLevels := rfl
@[simp] theorem State.conditionAll_channels (s : State) (who : AgentSet) (r : Reason) (h : Handle) (k : Key) : (s.conditionAll who r h k).channels = s.channels := rfl
@[simp] theorem State.conditionAll_updateQueue (s : State) (who : AgentSet) (r : Reason) (h : Handle) (k : Key) : (s.conditionAll who r h k).updateQueue = s.updateQueue := rfl
@[simp] theorem State.conditionAll_link (s : State) (who : AgentSet) (r : Reason) (h : Handle) (k : Key) : (s.conditionAll who r h k).link = s.link := rfl
@[simp] theorem State.conditionAll_uldat (s : State) (who : AgentSet) (r : Reason) (h : Handle) (k : Key) : (s.conditionAll who r h k).uldat = s.uldat := rfl
@[simp] theorem State.conditionAll_ports (s : State) (who : AgentSet) (r : Reason) (h : Handle) (k : Key) : (s.conditionAll who r h k).ports = s.ports := rfl
@[simp] theorem State.conditionAll_pointer (s : State) (who : AgentSet) (r : Reason) (h : Handle) (k : Key) : (s.conditionAll who r h k).pointer = s.pointer := rfl
@[simp] theorem State.conditionAll_engine (s : State) (who : AgentSet) (r : Reason) (h : Handle) (k : Key) : (s.conditionAll who r h k).engine = s.engine := rfl
@[simp] theorem State.conditionAll_freeDraws (s : State) (who : AgentSet) (r : Reason) (h : Handle) (k : Key) : (s.conditionAll who r h k).freeDraws = s.freeDraws := rfl
@[simp] theorem State.conditionAll_pending (s : State) (who : AgentSet) (r : Reason) (h : Handle) (k : Key) : (s.conditionAll who r h k).pending = s.pending := rfl

/-! ### dropAgent -/
@[simp] theorem State.dropAgent_phase (s : State) (a : Agent) : (s.dropAgent a).phase = s.phase := rfl
@[simp] theorem State.dropAgent_keyIndex (s : State) (a : Agent) : (s.dropAgent a).keyIndex = s.keyIndex := rfl
@[simp] theorem State.dropAgent_freeList (s : State) (a : Agent) : (s.dropAgent a).freeList = s.freeList := rfl
@[simp] theorem State.dropAgent_rights (s : State) (a : Agent) : (s.dropAgent a).rights = s.rights := rfl
@[simp] theorem State.dropAgent_agents (s : State) (a : Agent) : (s.dropAgent a).agents = s.agents := rfl
@[simp] theorem State.dropAgent_linkStalled (s : State) (a : Agent) : (s.dropAgent a).linkStalled = s.linkStalled := rfl
@[simp] theorem State.dropAgent_lostAgents (s : State) (a : Agent) : (s.dropAgent a).lostAgents = s.lostAgents := rfl
@[simp] theorem State.dropAgent_groups (s : State) (a : Agent) : (s.dropAgent a).groups = s.groups := rfl
@[simp] theorem State.dropAgent_sweep (s : State) (a : Agent) : (s.dropAgent a).sweep = s.sweep := rfl
@[simp] theorem State.dropAgent_applyLevels (s : State) (a : Agent) : (s.dropAgent a).applyLevels = s.applyLevels := rfl
@[simp] theorem State.dropAgent_channels (s : State) (a : Agent) : (s.dropAgent a).channels = s.channels := rfl
@[simp] theorem State.dropAgent_updateQueue (s : State) (a : Agent) : (s.dropAgent a).updateQueue = s.updateQueue := rfl
@[simp] theorem State.dropAgent_link (s : State) (a : Agent) : (s.dropAgent a).link = s.link := rfl
@[simp] theorem State.dropAgent_uldat (s : State) (a : Agent) : (s.dropAgent a).uldat = s.uldat := rfl
@[simp] theorem State.dropAgent_ports (s : State) (a : Agent) : (s.dropAgent a).ports = s.ports := rfl
@[simp] theorem State.dropAgent_pointer (s : State) (a : Agent) : (s.dropAgent a).pointer = s.pointer := rfl
@[simp] theorem State.dropAgent_engine (s : State) (a : Agent) : (s.dropAgent a).engine = s.engine := rfl
@[simp] theorem State.dropAgent_freeDraws (s : State) (a : Agent) : (s.dropAgent a).freeDraws = s.freeDraws := rfl
@[simp] theorem State.dropAgent_pending (s : State) (a : Agent) : (s.dropAgent a).pending = s.pending := rfl

/-! ### renew -/
@[simp] theorem State.renew_phase (s : State) (a : Agent) : (s.renew a).phase = s.phase := rfl
@[simp] theorem State.renew_slots (s : State) (a : Agent) : (s.renew a).slots = s.slots := rfl
@[simp] theorem State.renew_keyIndex (s : State) (a : Agent) : (s.renew a).keyIndex = s.keyIndex := rfl
@[simp] theorem State.renew_freeList (s : State) (a : Agent) : (s.renew a).freeList = s.freeList := rfl
@[simp] theorem State.renew_rights (s : State) (a : Agent) : (s.renew a).rights = s.rights := rfl
@[simp] theorem State.renew_linkStalled (s : State) (a : Agent) : (s.renew a).linkStalled = s.linkStalled := rfl
@[simp] theorem State.renew_lostAgents (s : State) (a : Agent) : (s.renew a).lostAgents = s.lostAgents := rfl
@[simp] theorem State.renew_groups (s : State) (a : Agent) : (s.renew a).groups = s.groups := rfl
@[simp] theorem State.renew_sweep (s : State) (a : Agent) : (s.renew a).sweep = s.sweep := rfl
@[simp] theorem State.renew_applyLevels (s : State) (a : Agent) : (s.renew a).applyLevels = s.applyLevels := rfl
@[simp] theorem State.renew_channels (s : State) (a : Agent) : (s.renew a).channels = s.channels := rfl
@[simp] theorem State.renew_updateQueue (s : State) (a : Agent) : (s.renew a).updateQueue = s.updateQueue := rfl
@[simp] theorem State.renew_link (s : State) (a : Agent) : (s.renew a).link = s.link := rfl
@[simp] theorem State.renew_uldat (s : State) (a : Agent) : (s.renew a).uldat = s.uldat := rfl
@[simp] theorem State.renew_ports (s : State) (a : Agent) : (s.renew a).ports = s.ports := rfl
@[simp] theorem State.renew_pointer (s : State) (a : Agent) : (s.renew a).pointer = s.pointer := rfl
@[simp] theorem State.renew_engine (s : State) (a : Agent) : (s.renew a).engine = s.engine := rfl
@[simp] theorem State.renew_freeDraws (s : State) (a : Agent) : (s.renew a).freeDraws = s.freeDraws := rfl
@[simp] theorem State.renew_pending (s : State) (a : Agent) : (s.renew a).pending = s.pending := rfl

/-! ### takeFrom -/
@[simp] theorem State.takeFrom_phase (s : State) (p : PortId) : (s.takeFrom p).phase = s.phase := rfl
@[simp] theorem State.takeFrom_slots (s : State) (p : PortId) : (s.takeFrom p).slots = s.slots := rfl
@[simp] theorem State.takeFrom_keyIndex (s : State) (p : PortId) : (s.takeFrom p).keyIndex = s.keyIndex := rfl
@[simp] theorem State.takeFrom_freeList (s : State) (p : PortId) : (s.takeFrom p).freeList = s.freeList := rfl
@[simp] theorem State.takeFrom_rights (s : State) (p : PortId) : (s.takeFrom p).rights = s.rights := rfl
@[simp] theorem State.takeFrom_agents (s : State) (p : PortId) : (s.takeFrom p).agents = s.agents := rfl
@[simp] theorem State.takeFrom_linkStalled (s : State) (p : PortId) : (s.takeFrom p).linkStalled = s.linkStalled := rfl
@[simp] theorem State.takeFrom_lostAgents (s : State) (p : PortId) : (s.takeFrom p).lostAgents = s.lostAgents := rfl
@[simp] theorem State.takeFrom_groups (s : State) (p : PortId) : (s.takeFrom p).groups = s.groups := rfl
@[simp] theorem State.takeFrom_sweep (s : State) (p : PortId) : (s.takeFrom p).sweep = s.sweep := rfl
@[simp] theorem State.takeFrom_applyLevels (s : State) (p : PortId) : (s.takeFrom p).applyLevels = s.applyLevels := rfl
@[simp] theorem State.takeFrom_channels (s : State) (p : PortId) : (s.takeFrom p).channels = s.channels := rfl
@[simp] theorem State.takeFrom_updateQueue (s : State) (p : PortId) : (s.takeFrom p).updateQueue = s.updateQueue := rfl
@[simp] theorem State.takeFrom_link (s : State) (p : PortId) : (s.takeFrom p).link = s.link := rfl
@[simp] theorem State.takeFrom_uldat (s : State) (p : PortId) : (s.takeFrom p).uldat = s.uldat := rfl
@[simp] theorem State.takeFrom_engine (s : State) (p : PortId) : (s.takeFrom p).engine = s.engine := rfl
@[simp] theorem State.takeFrom_freeDraws (s : State) (p : PortId) : (s.takeFrom p).freeDraws = s.freeDraws := rfl
@[simp] theorem State.takeFrom_pending (s : State) (p : PortId) : (s.takeFrom p).pending = s.pending := rfl

/-! ### begun -/
@[simp] theorem State.begun_phase (s : State) (p : PortId) (a : Agent) : (s.begun p a).phase = s.phase := rfl
@[simp] theorem State.begun_slots (s : State) (p : PortId) (a : Agent) : (s.begun p a).slots = s.slots := rfl
@[simp] theorem State.begun_keyIndex (s : State) (p : PortId) (a : Agent) : (s.begun p a).keyIndex = s.keyIndex := rfl
@[simp] theorem State.begun_freeList (s : State) (p : PortId) (a : Agent) : (s.begun p a).freeList = s.freeList := rfl
@[simp] theorem State.begun_rights (s : State) (p : PortId) (a : Agent) : (s.begun p a).rights = s.rights := rfl
@[simp] theorem State.begun_linkStalled (s : State) (p : PortId) (a : Agent) : (s.begun p a).linkStalled = s.linkStalled := rfl
@[simp] theorem State.begun_lostAgents (s : State) (p : PortId) (a : Agent) : (s.begun p a).lostAgents = s.lostAgents := rfl
@[simp] theorem State.begun_groups (s : State) (p : PortId) (a : Agent) : (s.begun p a).groups = s.groups := rfl
@[simp] theorem State.begun_sweep (s : State) (p : PortId) (a : Agent) : (s.begun p a).sweep = s.sweep := rfl
@[simp] theorem State.begun_applyLevels (s : State) (p : PortId) (a : Agent) : (s.begun p a).applyLevels = s.applyLevels := rfl
@[simp] theorem State.begun_channels (s : State) (p : PortId) (a : Agent) : (s.begun p a).channels = s.channels := rfl
@[simp] theorem State.begun_updateQueue (s : State) (p : PortId) (a : Agent) : (s.begun p a).updateQueue = s.updateQueue := rfl
@[simp] theorem State.begun_link (s : State) (p : PortId) (a : Agent) : (s.begun p a).link = s.link := rfl
@[simp] theorem State.begun_uldat (s : State) (p : PortId) (a : Agent) : (s.begun p a).uldat = s.uldat := rfl
@[simp] theorem State.begun_engine (s : State) (p : PortId) (a : Agent) : (s.begun p a).engine = s.engine := rfl
@[simp] theorem State.begun_freeDraws (s : State) (p : PortId) (a : Agent) : (s.begun p a).freeDraws = s.freeDraws := rfl
@[simp] theorem State.begun_pending (s : State) (p : PortId) (a : Agent) : (s.begun p a).pending = s.pending := rfl

/-! ### deliverTo -/
@[simp] theorem State.deliverTo_phase (s : State) (p : PortId) (resp : List Byte) : (s.deliverTo p resp).phase = s.phase := rfl
@[simp] theorem State.deliverTo_slots (s : State) (p : PortId) (resp : List Byte) : (s.deliverTo p resp).slots = s.slots := rfl
@[simp] theorem State.deliverTo_keyIndex (s : State) (p : PortId) (resp : List Byte) : (s.deliverTo p resp).keyIndex = s.keyIndex := rfl
@[simp] theorem State.deliverTo_freeList (s : State) (p : PortId) (resp : List Byte) : (s.deliverTo p resp).freeList = s.freeList := rfl
@[simp] theorem State.deliverTo_rights (s : State) (p : PortId) (resp : List Byte) : (s.deliverTo p resp).rights = s.rights := rfl
@[simp] theorem State.deliverTo_agents (s : State) (p : PortId) (resp : List Byte) : (s.deliverTo p resp).agents = s.agents := rfl
@[simp] theorem State.deliverTo_linkStalled (s : State) (p : PortId) (resp : List Byte) : (s.deliverTo p resp).linkStalled = s.linkStalled := rfl
@[simp] theorem State.deliverTo_lostAgents (s : State) (p : PortId) (resp : List Byte) : (s.deliverTo p resp).lostAgents = s.lostAgents := rfl
@[simp] theorem State.deliverTo_groups (s : State) (p : PortId) (resp : List Byte) : (s.deliverTo p resp).groups = s.groups := rfl
@[simp] theorem State.deliverTo_sweep (s : State) (p : PortId) (resp : List Byte) : (s.deliverTo p resp).sweep = s.sweep := rfl
@[simp] theorem State.deliverTo_applyLevels (s : State) (p : PortId) (resp : List Byte) : (s.deliverTo p resp).applyLevels = s.applyLevels := rfl
@[simp] theorem State.deliverTo_channels (s : State) (p : PortId) (resp : List Byte) : (s.deliverTo p resp).channels = s.channels := rfl
@[simp] theorem State.deliverTo_updateQueue (s : State) (p : PortId) (resp : List Byte) : (s.deliverTo p resp).updateQueue = s.updateQueue := rfl
@[simp] theorem State.deliverTo_link (s : State) (p : PortId) (resp : List Byte) : (s.deliverTo p resp).link = s.link := rfl
@[simp] theorem State.deliverTo_uldat (s : State) (p : PortId) (resp : List Byte) : (s.deliverTo p resp).uldat = s.uldat := rfl
@[simp] theorem State.deliverTo_pointer (s : State) (p : PortId) (resp : List Byte) : (s.deliverTo p resp).pointer = s.pointer := rfl
@[simp] theorem State.deliverTo_freeDraws (s : State) (p : PortId) (resp : List Byte) : (s.deliverTo p resp).freeDraws = s.freeDraws := rfl
@[simp] theorem State.deliverTo_pending (s : State) (p : PortId) (resp : List Byte) : (s.deliverTo p resp).pending = s.pending := rfl

/-! ### answered -/
@[simp] theorem State.answered_phase (s : State) (p : PortId) (f : List Byte) (o : ReqOutcome) (body : List Byte) : (s.answered p f o body).phase = s.phase := rfl
@[simp] theorem State.answered_slots (s : State) (p : PortId) (f : List Byte) (o : ReqOutcome) (body : List Byte) : (s.answered p f o body).slots = s.slots := rfl
@[simp] theorem State.answered_keyIndex (s : State) (p : PortId) (f : List Byte) (o : ReqOutcome) (body : List Byte) : (s.answered p f o body).keyIndex = s.keyIndex := rfl
@[simp] theorem State.answered_freeList (s : State) (p : PortId) (f : List Byte) (o : ReqOutcome) (body : List Byte) : (s.answered p f o body).freeList = s.freeList := rfl
@[simp] theorem State.answered_rights (s : State) (p : PortId) (f : List Byte) (o : ReqOutcome) (body : List Byte) : (s.answered p f o body).rights = s.rights := rfl
@[simp] theorem State.answered_agents (s : State) (p : PortId) (f : List Byte) (o : ReqOutcome) (body : List Byte) : (s.answered p f o body).agents = s.agents := rfl
@[simp] theorem State.answered_linkStalled (s : State) (p : PortId) (f : List Byte) (o : ReqOutcome) (body : List Byte) : (s.answered p f o body).linkStalled = s.linkStalled := rfl
@[simp] theorem State.answered_lostAgents (s : State) (p : PortId) (f : List Byte) (o : ReqOutcome) (body : List Byte) : (s.answered p f o body).lostAgents = s.lostAgents := rfl
@[simp] theorem State.answered_groups (s : State) (p : PortId) (f : List Byte) (o : ReqOutcome) (body : List Byte) : (s.answered p f o body).groups = s.groups := rfl
@[simp] theorem State.answered_sweep (s : State) (p : PortId) (f : List Byte) (o : ReqOutcome) (body : List Byte) : (s.answered p f o body).sweep = s.sweep := rfl
@[simp] theorem State.answered_applyLevels (s : State) (p : PortId) (f : List Byte) (o : ReqOutcome) (body : List Byte) : (s.answered p f o body).applyLevels = s.applyLevels := rfl
@[simp] theorem State.answered_channels (s : State) (p : PortId) (f : List Byte) (o : ReqOutcome) (body : List Byte) : (s.answered p f o body).channels = s.channels := rfl
@[simp] theorem State.answered_updateQueue (s : State) (p : PortId) (f : List Byte) (o : ReqOutcome) (body : List Byte) : (s.answered p f o body).updateQueue = s.updateQueue := rfl
@[simp] theorem State.answered_link (s : State) (p : PortId) (f : List Byte) (o : ReqOutcome) (body : List Byte) : (s.answered p f o body).link = s.link := rfl
@[simp] theorem State.answered_uldat (s : State) (p : PortId) (f : List Byte) (o : ReqOutcome) (body : List Byte) : (s.answered p f o body).uldat = s.uldat := rfl
@[simp] theorem State.answered_pointer (s : State) (p : PortId) (f : List Byte) (o : ReqOutcome) (body : List Byte) : (s.answered p f o body).pointer = s.pointer := rfl
@[simp] theorem State.answered_freeDraws (s : State) (p : PortId) (f : List Byte) (o : ReqOutcome) (body : List Byte) : (s.answered p f o body).freeDraws = s.freeDraws := rfl
@[simp] theorem State.answered_pending (s : State) (p : PortId) (f : List Byte) (o : ReqOutcome) (body : List Byte) : (s.answered p f o body).pending = s.pending := rfl

/-! ### grantInternal -/
@[simp] theorem State.grantInternal_phase (s : State) : (s.grantInternal).phase = s.phase := rfl
@[simp] theorem State.grantInternal_slots (s : State) : (s.grantInternal).slots = s.slots := rfl
@[simp] theorem State.grantInternal_keyIndex (s : State) : (s.grantInternal).keyIndex = s.keyIndex := rfl
@[simp] theorem State.grantInternal_freeList (s : State) : (s.grantInternal).freeList = s.freeList := rfl
@[simp] theorem State.grantInternal_rights (s : State) : (s.grantInternal).rights = s.rights := rfl
@[simp] theorem State.grantInternal_agents (s : State) : (s.grantInternal).agents = s.agents := rfl
@[simp] theorem State.grantInternal_linkStalled (s : State) : (s.grantInternal).linkStalled = s.linkStalled := rfl
@[simp] theorem State.grantInternal_lostAgents (s : State) : (s.grantInternal).lostAgents = s.lostAgents := rfl
@[simp] theorem State.grantInternal_groups (s : State) : (s.grantInternal).groups = s.groups := rfl
@[simp] theorem State.grantInternal_sweep (s : State) : (s.grantInternal).sweep = s.sweep := rfl
@[simp] theorem State.grantInternal_applyLevels (s : State) : (s.grantInternal).applyLevels = s.applyLevels := rfl
@[simp] theorem State.grantInternal_channels (s : State) : (s.grantInternal).channels = s.channels := rfl
@[simp] theorem State.grantInternal_updateQueue (s : State) : (s.grantInternal).updateQueue = s.updateQueue := rfl
@[simp] theorem State.grantInternal_link (s : State) : (s.grantInternal).link = s.link := rfl
@[simp] theorem State.grantInternal_uldat (s : State) : (s.grantInternal).uldat = s.uldat := rfl
@[simp] theorem State.grantInternal_ports (s : State) : (s.grantInternal).ports = s.ports := rfl
@[simp] theorem State.grantInternal_engine (s : State) : (s.grantInternal).engine = s.engine := rfl
@[simp] theorem State.grantInternal_freeDraws (s : State) : (s.grantInternal).freeDraws = s.freeDraws := rfl
@[simp] theorem State.grantInternal_pending (s : State) : (s.grantInternal).pending = s.pending := rfl

/-! ### endTransaction -/
@[simp] theorem State.endTransaction_phase (s : State) (p : PortId) (q : Port) (out : List Byte) : (s.endTransaction p q out).phase = s.phase := rfl
@[simp] theorem State.endTransaction_slots (s : State) (p : PortId) (q : Port) (out : List Byte) : (s.endTransaction p q out).slots = s.slots := rfl
@[simp] theorem State.endTransaction_keyIndex (s : State) (p : PortId) (q : Port) (out : List Byte) : (s.endTransaction p q out).keyIndex = s.keyIndex := rfl
@[simp] theorem State.endTransaction_freeList (s : State) (p : PortId) (q : Port) (out : List Byte) : (s.endTransaction p q out).freeList = s.freeList := rfl
@[simp] theorem State.endTransaction_rights (s : State) (p : PortId) (q : Port) (out : List Byte) : (s.endTransaction p q out).rights = s.rights := rfl
@[simp] theorem State.endTransaction_agents (s : State) (p : PortId) (q : Port) (out : List Byte) : (s.endTransaction p q out).agents = s.agents := rfl
@[simp] theorem State.endTransaction_linkStalled (s : State) (p : PortId) (q : Port) (out : List Byte) : (s.endTransaction p q out).linkStalled = s.linkStalled := rfl
@[simp] theorem State.endTransaction_lostAgents (s : State) (p : PortId) (q : Port) (out : List Byte) : (s.endTransaction p q out).lostAgents = s.lostAgents := rfl
@[simp] theorem State.endTransaction_groups (s : State) (p : PortId) (q : Port) (out : List Byte) : (s.endTransaction p q out).groups = s.groups := rfl
@[simp] theorem State.endTransaction_sweep (s : State) (p : PortId) (q : Port) (out : List Byte) : (s.endTransaction p q out).sweep = s.sweep := rfl
@[simp] theorem State.endTransaction_applyLevels (s : State) (p : PortId) (q : Port) (out : List Byte) : (s.endTransaction p q out).applyLevels = s.applyLevels := rfl
@[simp] theorem State.endTransaction_channels (s : State) (p : PortId) (q : Port) (out : List Byte) : (s.endTransaction p q out).channels = s.channels := rfl
@[simp] theorem State.endTransaction_updateQueue (s : State) (p : PortId) (q : Port) (out : List Byte) : (s.endTransaction p q out).updateQueue = s.updateQueue := rfl
@[simp] theorem State.endTransaction_link (s : State) (p : PortId) (q : Port) (out : List Byte) : (s.endTransaction p q out).link = s.link := rfl
@[simp] theorem State.endTransaction_uldat (s : State) (p : PortId) (q : Port) (out : List Byte) : (s.endTransaction p q out).uldat = s.uldat := rfl
@[simp] theorem State.endTransaction_pointer (s : State) (p : PortId) (q : Port) (out : List Byte) : (s.endTransaction p q out).pointer = s.pointer := rfl
@[simp] theorem State.endTransaction_engine (s : State) (p : PortId) (q : Port) (out : List Byte) : (s.endTransaction p q out).engine = s.engine := rfl
@[simp] theorem State.endTransaction_freeDraws (s : State) (p : PortId) (q : Port) (out : List Byte) : (s.endTransaction p q out).freeDraws = s.freeDraws := rfl
@[simp] theorem State.endTransaction_pending (s : State) (p : PortId) (q : Port) (out : List Byte) : (s.endTransaction p q out).pending = s.pending := rfl

/-! ### raiseAll -/
@[simp] theorem State.raiseAll_phase (s : State) (gs : GroupSet) : (s.raiseAll gs).phase = s.phase := rfl
@[simp] theorem State.raiseAll_slots (s : State) (gs : GroupSet) : (s.raiseAll gs).slots = s.slots := rfl
@[simp] theorem State.raiseAll_keyIndex (s : State) (gs : GroupSet) : (s.raiseAll gs).keyIndex = s.keyIndex := rfl
@[simp] theorem State.raiseAll_freeList (s : State) (gs : GroupSet) : (s.raiseAll gs).freeList = s.freeList := rfl
@[simp] theorem State.raiseAll_rights (s : State) (gs : GroupSet) : (s.raiseAll gs).rights = s.rights := rfl
@[simp] theorem State.raiseAll_agents (s : State) (gs : GroupSet) : (s.raiseAll gs).agents = s.agents := rfl
@[simp] theorem State.raiseAll_linkStalled (s : State) (gs : GroupSet) : (s.raiseAll gs).linkStalled = s.linkStalled := rfl
@[simp] theorem State.raiseAll_lostAgents (s : State) (gs : GroupSet) : (s.raiseAll gs).lostAgents = s.lostAgents := rfl
@[simp] theorem State.raiseAll_sweep (s : State) (gs : GroupSet) : (s.raiseAll gs).sweep = s.sweep := rfl
@[simp] theorem State.raiseAll_applyLevels (s : State) (gs : GroupSet) : (s.raiseAll gs).applyLevels = s.applyLevels := rfl
@[simp] theorem State.raiseAll_channels (s : State) (gs : GroupSet) : (s.raiseAll gs).channels = s.channels := rfl
@[simp] theorem State.raiseAll_updateQueue (s : State) (gs : GroupSet) : (s.raiseAll gs).updateQueue = s.updateQueue := rfl
@[simp] theorem State.raiseAll_link (s : State) (gs : GroupSet) : (s.raiseAll gs).link = s.link := rfl
@[simp] theorem State.raiseAll_uldat (s : State) (gs : GroupSet) : (s.raiseAll gs).uldat = s.uldat := rfl
@[simp] theorem State.raiseAll_ports (s : State) (gs : GroupSet) : (s.raiseAll gs).ports = s.ports := rfl
@[simp] theorem State.raiseAll_pointer (s : State) (gs : GroupSet) : (s.raiseAll gs).pointer = s.pointer := rfl
@[simp] theorem State.raiseAll_engine (s : State) (gs : GroupSet) : (s.raiseAll gs).engine = s.engine := rfl
@[simp] theorem State.raiseAll_freeDraws (s : State) (gs : GroupSet) : (s.raiseAll gs).freeDraws = s.freeDraws := rfl
@[simp] theorem State.raiseAll_pending (s : State) (gs : GroupSet) : (s.raiseAll gs).pending = s.pending := rfl

/-! ### beginSweep -/
@[simp] theorem State.beginSweep_phase (s : State) (g : GroupNo) : (s.beginSweep g).phase = s.phase := rfl
@[simp] theorem State.beginSweep_slots (s : State) (g : GroupNo) : (s.beginSweep g).slots = s.slots := rfl
@[simp] theorem State.beginSweep_keyIndex (s : State) (g : GroupNo) : (s.beginSweep g).keyIndex = s.keyIndex := rfl
@[simp] theorem State.beginSweep_freeList (s : State) (g : GroupNo) : (s.beginSweep g).freeList = s.freeList := rfl
@[simp] theorem State.beginSweep_rights (s : State) (g : GroupNo) : (s.beginSweep g).rights = s.rights := rfl
@[simp] theorem State.beginSweep_agents (s : State) (g : GroupNo) : (s.beginSweep g).agents = s.agents := rfl
@[simp] theorem State.beginSweep_linkStalled (s : State) (g : GroupNo) : (s.beginSweep g).linkStalled = s.linkStalled := rfl
@[simp] theorem State.beginSweep_lostAgents (s : State) (g : GroupNo) : (s.beginSweep g).lostAgents = s.lostAgents := rfl
@[simp] theorem State.beginSweep_applyLevels (s : State) (g : GroupNo) : (s.beginSweep g).applyLevels = s.applyLevels := rfl
@[simp] theorem State.beginSweep_channels (s : State) (g : GroupNo) : (s.beginSweep g).channels = s.channels := rfl
@[simp] theorem State.beginSweep_updateQueue (s : State) (g : GroupNo) : (s.beginSweep g).updateQueue = s.updateQueue := rfl
@[simp] theorem State.beginSweep_link (s : State) (g : GroupNo) : (s.beginSweep g).link = s.link := rfl
@[simp] theorem State.beginSweep_uldat (s : State) (g : GroupNo) : (s.beginSweep g).uldat = s.uldat := rfl
@[simp] theorem State.beginSweep_ports (s : State) (g : GroupNo) : (s.beginSweep g).ports = s.ports := rfl
@[simp] theorem State.beginSweep_pointer (s : State) (g : GroupNo) : (s.beginSweep g).pointer = s.pointer := rfl
@[simp] theorem State.beginSweep_engine (s : State) (g : GroupNo) : (s.beginSweep g).engine = s.engine := rfl
@[simp] theorem State.beginSweep_freeDraws (s : State) (g : GroupNo) : (s.beginSweep g).freeDraws = s.freeDraws := rfl
@[simp] theorem State.beginSweep_pending (s : State) (g : GroupNo) : (s.beginSweep g).pending = s.pending := rfl

/-! ### clearStore -/
@[simp] theorem State.clearStore_phase (s : State) : (s.clearStore).phase = s.phase := rfl
@[simp] theorem State.clearStore_rights (s : State) : (s.clearStore).rights = s.rights := rfl
@[simp] theorem State.clearStore_agents (s : State) : (s.clearStore).agents = s.agents := rfl
@[simp] theorem State.clearStore_linkStalled (s : State) : (s.clearStore).linkStalled = s.linkStalled := rfl
@[simp] theorem State.clearStore_lostAgents (s : State) : (s.clearStore).lostAgents = s.lostAgents := rfl
@[simp] theorem State.clearStore_groups (s : State) : (s.clearStore).groups = s.groups := rfl
@[simp] theorem State.clearStore_sweep (s : State) : (s.clearStore).sweep = s.sweep := rfl
@[simp] theorem State.clearStore_applyLevels (s : State) : (s.clearStore).applyLevels = s.applyLevels := rfl
@[simp] theorem State.clearStore_channels (s : State) : (s.clearStore).channels = s.channels := rfl
@[simp] theorem State.clearStore_updateQueue (s : State) : (s.clearStore).updateQueue = s.updateQueue := rfl
@[simp] theorem State.clearStore_link (s : State) : (s.clearStore).link = s.link := rfl
@[simp] theorem State.clearStore_uldat (s : State) : (s.clearStore).uldat = s.uldat := rfl
@[simp] theorem State.clearStore_ports (s : State) : (s.clearStore).ports = s.ports := rfl
@[simp] theorem State.clearStore_pointer (s : State) : (s.clearStore).pointer = s.pointer := rfl
@[simp] theorem State.clearStore_engine (s : State) : (s.clearStore).engine = s.engine := rfl
@[simp] theorem State.clearStore_freeDraws (s : State) : (s.clearStore).freeDraws = s.freeDraws := rfl
@[simp] theorem State.clearStore_pending (s : State) : (s.clearStore).pending = s.pending := rfl

/-! ### What each update writes -/
theorem State.setRecord_slots (s : State) (i : SlotNo) (r : Option Record) :
    (s.setRecord i r).slots = s.slots.set i { inc := (s.slots.get i).inc, record := r } := rfl
theorem State.setRow_agents (s : State) (a : Agent) (r : AgentRow) :
    (s.setRow a r).agents = s.agents.set a r := rfl
theorem State.setGroup_groups (s : State) (g : GroupNo) (r : Group) :
    (s.setGroup g r).groups = s.groups.set g r := rfl
theorem State.setChannel_channels (s : State) (c : ChannelNo) (r : Channel) :
    (s.setChannel c r).channels = s.channels.set c r := rfl
theorem State.setPort_ports (s : State) (p : PortId) (q : Port) :
    (s.setPort p q).ports = s.ports.set p q := rfl
@[simp] theorem State.takeFrom_pointer (s : State) (p : PortId) : (s.takeFrom p).pointer = .port p := rfl
@[simp] theorem State.deliverTo_engine (s : State) (p : PortId) (resp : List Byte) :
    (s.deliverTo p resp).engine = .free := rfl
@[simp] theorem State.grantInternal_pointer (s : State) : s.grantInternal.pointer = .internal := rfl

/-! ### Reading back through an update -/
@[simp] theorem State.record_setRecord_self (s : State) (i : SlotNo) (r : Option Record) :
    (s.setRecord i r).record i = r := by simp [State.record, State.setRecord_slots]
@[simp] theorem State.record_setRecord_ne (s : State) {i j : SlotNo} (r : Option Record) (h : i ≠ j) :
    (s.setRecord i r).record j = s.record j := by simp [State.record, State.setRecord_slots, h]
/-- Filling or freeing a slot leaves every incarnation (R7). -/
@[simp] theorem State.inc_setRecord (s : State) (i j : SlotNo) (r : Option Record) :
    ((s.setRecord i r).slots.get j).inc = (s.slots.get j).inc := by
  by_cases h : i = j
  · subst h; simp [State.setRecord_slots]
  · simp [State.setRecord_slots, h]
@[simp] theorem State.row_setRow_self (s : State) (a : Agent) (r : AgentRow) : (s.setRow a r).row a = r := by
  simp [State.row, State.setRow_agents]
@[simp] theorem State.row_setRow_ne (s : State) {a b : Agent} (r : AgentRow) (h : a ≠ b) :
    (s.setRow a r).row b = s.row b := by simp [State.row, State.setRow_agents, h]
@[simp] theorem State.group_setGroup_self (s : State) (g : GroupNo) (r : Group) : (s.setGroup g r).group g = r := by
  simp [State.group, State.setGroup_groups]
@[simp] theorem State.group_setGroup_ne (s : State) {g j : GroupNo} (r : Group) (h : g ≠ j) :
    (s.setGroup g r).group j = s.group j := by simp [State.group, State.setGroup_groups, h]
@[simp] theorem State.channel_setChannel_self (s : State) (c : ChannelNo) (r : Channel) :
    (s.setChannel c r).channel c = r := by simp [State.channel, State.setChannel_channels]
@[simp] theorem State.channel_setChannel_ne (s : State) {c d : ChannelNo} (r : Channel) (h : c ≠ d) :
    (s.setChannel c r).channel d = s.channel d := by simp [State.channel, State.setChannel_channels, h]
@[simp] theorem State.port_setPort_self (s : State) (p : PortId) (q : Port) : (s.setPort p q).port p = q := by
  simp [State.port, State.setPort_ports]
@[simp] theorem State.port_setPort_ne (s : State) {p j : PortId} (q : Port) (h : p ≠ j) :
    (s.setPort p q).port j = s.port j := by simp [State.port, State.setPort_ports, h]

end Sys2Proof.Machine
end

