-- ==== Sys2Proof/Laws/Admission.lean ====
section
/-! SUPPORT. What the service of a request can do: the parts of a request, the request past its session checks, and
what no request's execution touches. -/
namespace Sys2Proof.Machine

/-! ### What an execution leaves alone -/

/-- The ports, the engine, the pointer and the other parts that a request's own checks and execution never touch. -/
structure State.SameFront (s t : State) : Prop where
  phase : t.phase = s.phase
  applyLevels : t.applyLevels = s.applyLevels
  uldat : t.uldat = s.uldat
  ports : t.ports = s.ports
  pointer : t.pointer = s.pointer
  engine : t.engine = s.engine
  pending : t.pending = s.pending

namespace State.SameFront
variable {s t u : State}

theorem refl (s : State) : s.SameFront s := ⟨rfl, rfl, rfl, rfl, rfl, rfl, rfl⟩
theorem trans (h : s.SameFront t) (g : t.SameFront u) : s.SameFront u :=
  ⟨g.1.trans h.1, g.2.trans h.2, g.3.trans h.3, g.4.trans h.4, g.5.trans h.5, g.6.trans h.6, g.7.trans h.7⟩
theorem setRecord (h : s.SameFront t) (i r) : s.SameFront (t.setRecord i r) := h.trans ⟨rfl, rfl, rfl, rfl, rfl, rfl, rfl⟩
theorem setRow (h : s.SameFront t) (a r) : s.SameFront (t.setRow a r) := h.trans ⟨rfl, rfl, rfl, rfl, rfl, rfl, rfl⟩
theorem condition (h : s.SameFront t) (a r hd k) : s.SameFront (t.condition a r hd k) := h.setRow _ _
theorem conditionAll (h : s.SameFront t) (w r hd k) : s.SameFront (t.conditionAll w r hd k) :=
  h.trans ⟨rfl, rfl, rfl, rfl, rfl, rfl, rfl⟩
theorem notice (h : s.SameFront t) (c k v) : s.SameFront (t.notice c k v) := h.trans ⟨rfl, rfl, rfl, rfl, rfl, rfl, rfl⟩
theorem parkChannel (h : s.SameFront t) (c) : s.SameFront (t.parkChannel c) := h.trans ⟨rfl, rfl, rfl, rfl, rfl, rfl, rfl⟩
theorem dropAgent (h : s.SameFront t) (a) : s.SameFront (t.dropAgent a) := h.trans ⟨rfl, rfl, rfl, rfl, rfl, rfl, rfl⟩

theorem noticeChange (h : s.SameFront t) (b o n) : s.SameFront (t.noticeChange b o n) := by
  unfold State.noticeChange
  split
  · exact h
  · split
    · exact h
    · exact h.notice _ _ _

theorem liveChanged (h : s.SameFront t) (i r v w) : s.SameFront (t.liveChanged i r v w) := by
  unfold State.liveChanged
  split
  · exact h
  · exact (h.noticeChange _ _ _).conditionAll _ _ _ _

theorem clearSupervisor (h : s.SameFront t) (a) : s.SameFront (t.clearSupervisor a) := by
  unfold State.clearSupervisor
  split
  · exact h.trans ⟨rfl, rfl, rfl, rfl, rfl, rfl, rfl⟩
  · exact h

theorem recordLoss (h : s.SameFront t) (a) : s.SameFront (t.recordLoss a) := by
  unfold State.recordLoss
  split
  · exact h.trans ⟨rfl, rfl, rfl, rfl, rfl, rfl, rfl⟩
  · exact h

theorem handOver (h : s.SameFront t) (i r a) : s.SameFront (t.handOver i r a) := by
  unfold State.handOver
  split
  · exact h.setRecord _ _
  · split
    · exact h.setRecord _ _
    · exact (h.setRecord _ _).condition _ _ _ _

theorem foldl {α : Type} {f : State → α → State} (hf : ∀ (t : State) (a : α), t.SameFront (f t a)) :
    ∀ (l : List α) (t : State), t.SameFront (l.foldl f t)
  | [], t => refl t
  | a :: l, t => (hf t a).trans (foldl hf l (f t a))

theorem lapseStep (h : s.SameFront t) (i) : s.SameFront (t.lapseStep i) := by
  unfold State.lapseStep
  split
  · exact h
  · dsimp only
    split
    · exact ((h.setRecord _ _).noticeChange _ _ _).conditionAll _ _ _ _
    · exact (((h.setRecord _ _).noticeChange _ _ _).conditionAll _ _ _ _).condition _ _ _ _

theorem lapseAgent (h : s.SameFront t) (a) : s.SameFront (t.lapseAgent a) := by
  unfold State.lapseAgent State.loseSession
  exact ((((h.setRow _ _).dropAgent _).clearSupervisor _).trans
    (foldl (fun _ _ => (refl _).lapseStep _) _ _)).recordLoss _

theorem releaseSlot (h : s.SameFront t) (a i) : s.SameFront (t.releaseSlot a i) := by
  unfold State.releaseSlot
  split
  · exact h
  · exact h.handOver _ _ _

theorem detachAgent (h : s.SameFront t) (a) : s.SameFront (t.detachAgent a) := by
  unfold State.detachAgent
  exact (((h.dropAgent _).trans (foldl (fun _ _ => (refl _).releaseSlot _ _) _ _)).setRow _ _).clearSupervisor _

theorem restartAll (h : s.SameFront t) : s.SameFront t.restartAll := by
  have hp : t.SameFront t.clearStore := ⟨rfl, rfl, rfl, rfl, rfl, rfl, rfl⟩
  have hf := hp.trans (foldl (f := State.parkChannel) (fun t c => (refl t).parkChannel c)
    (rankOrder (Config.restartRank t.freeDraws) t.boundChannels) t.clearStore)
  exact h.trans (hf.trans ⟨rfl, rfl, rfl, rfl, rfl, rfl, rfl⟩)

theorem tellRevoked (h : s.SameFront t) (o hd k) : s.SameFront (t.tellRevoked o hd k) := by
  unfold State.tellRevoked
  split
  · exact h
  · exact h.condition _ _ _ _

theorem fetched (h : s.SameFront t) (a) : s.SameFront (t.fetched a) := (h.setRow _ _).clearSupervisor _

theorem setRightsOf (h : s.SameFront t) (a c rs) : s.SameFront (t.setRightsOf a c rs) := by
  unfold State.setRightsOf
  split
  · exact h
  · exact h.trans ⟨rfl, rfl, rfl, rfl, rfl, rfl, rfl⟩

theorem parkBound (h : s.SameFront t) (b) : s.SameFront (t.parkBound b) := by
  unfold State.parkBound
  split
  · exact h
  · exact h.parkChannel _

theorem dismantle (h : s.SameFront t) (i r) : s.SameFront (t.dismantle i r) :=
  ((h.parkBound r.binding).setRecord i none).trans ⟨rfl, rfl, rfl, rfl, rfl, rfl, rfl⟩

theorem unbindRecord (h : s.SameFront t) (i) : s.SameFront (t.unbindRecord i) := by
  unfold State.unbindRecord
  split
  · exact h
  · exact h.setRecord _ _

end State.SameFront

/-! ### The execution of each kind -/

/-- The kind's own checks and execution. -/
def carryOf : ReqKind → Request → State → Answer
  | .attach => carryAttach
  | .detach => carryDetach
  | .keepalive => carryKeepalive
  | .queryAgent => carryQueryAgent
  | .restart => carryRestart
  | .setRights => carrySetRights
  | .create => carryCreate
  | .retire => carryRetire
  | .lookup => carryLookup
  | .read => carryRead
  | .enumerate => carryEnumerate
  | .claim => carryClaim
  | .release => carryRelease
  | .cancelClaim => carryCancelClaim
  | .revoke => carryRevoke
  | .restore => carryRestore
  | .stage => carryStage
  | .unstage => carryUnstage
  | .tune => carryTune
  | .apply => carryApply
  | .setGroup => carrySetGroup
  | .queryGroup => carryQueryGroup
  | .watch => carryWatch
  | .unwatch => carryUnwatch
  | .fetchAttention => carryFetchAttention
  | .bind => carryBind
  | .unbind => carryUnbind
  | .setPark => carrySetPark
  | .queryChannel => carryQueryChannel
  | .linkResume => carryLinkResume

/-- Every request command is the service of its kind. -/
theorem exec_requestInstr (k : ReqKind) (p : PortId) (x : Extent) (s : State) :
    exec (requestInstr k p x) s = .next (serve k (carryOf k) p x s) := by
  cases k <;> rfl

/-- No execution touches the ports, the engine, the pointer or the commands waiting. -/
theorem carryOf_sameFront (k : ReqKind) (q : Request) (s : State) : s.SameFront (carryOf k q s).st := by
  cases k
  all_goals
    simp only [carryOf, carryAttach, carryDetach, carryKeepalive, carryQueryAgent, carryRestart, carrySetRights,
      carryCreate, carryRetire, carryLookup, carryRead, carryEnumerate, carryClaim, carryRelease, carryCancelClaim,
      carryRevoke, carryRestore, carryStage, carryUnstage, carryTune, carryApply, carrySetGroup, carryQueryGroup,
      carryWatch, carryUnwatch, carryFetchAttention, carryBind, carryUnbind, carrySetPark, carryQueryChannel,
      carryLinkResume, onHandle, needRight, needOwner, needGuard, claimDecision, claimNow, stageAccepted, tuneAccepted,
      refuse]
    repeat' split
    all_goals
      first
      | exact .refl _
      | exact (State.SameFront.refl _).setRecord _ _
      | exact (State.SameFront.refl _).handOver _ _ _
      | exact ((State.SameFront.refl _).condition _ _ _ _).handOver _ _ _
      | exact ((State.SameFront.refl _).setRecord _ _).liveChanged _ _ _ _
      | exact (State.SameFront.refl _).detachAgent _
      | exact (State.SameFront.refl _).restartAll
      | exact (State.SameFront.refl _).setRow _ _
      | exact ((State.SameFront.refl _).lapseAgent _).setRow _ _
      | exact ⟨rfl, rfl, rfl, rfl, rfl, rfl, rfl⟩
      | exact (State.SameFront.refl _).fetched _
      | exact (State.SameFront.refl _).setRightsOf _ _ _
      | exact ((State.SameFront.refl _).conditionAll _ _ _ _).dismantle _ _
      | exact ((State.SameFront.refl _).tellRevoked _ _ _).handOver _ _ _
      | exact ((State.SameFront.refl _).unbindRecord _).parkChannel _
/-! ### The take, and the request past its session checks -/

theorem State.row_takeFrom (s : State) (p : PortId) (a : Agent) : (s.takeFrom p).row a = s.row a := rfl

theorem State.port_takeFrom_self (s : State) (p : PortId) :
    (s.takeFrom p).port p = { (s.port p) with request := .taken } := State.port_setPort_self s p _

theorem State.Offers.grantedFrame {s : State} {p : PortId} {f : List Byte} {c : Byte} (h : s.Offers p f c) :
    s.grantedFrame p = some f := by
  simp [State.grantedFrame, h.granted, h.submitted]

theorem State.Offers.phase {s : State} {p : PortId} {f : List Byte} {c : Byte} (h : s.Offers p f c) :
    s.phase = .ready ∧ s.engine = .free := by
  have := h.granted
  unfold State.grant at this
  split at this
  · assumption
  · cases this

/-- The whole of a request that the arbiter grants: its admission, then its response delivered. -/
theorem exec_whole_of_offers {k : ReqKind} {p : PortId} {f : List Byte} {s : State} (h : s.Offers p f k.code) :
    exec (requestInstr k p .whole) s = .next ((admission k (carryOf k) p f (s.takeFrom p)).st.answered p f
      (admission k (carryOf k) p f (s.takeFrom p)).outcome (admission k (carryOf k) p f (s.takeFrom p)).body) := by
  rw [exec_requestInstr]
  simp [serve, serveFrame, h.grantedFrame, h.kind, wholeRequest, State.answered]

/-- The take of a request that the arbiter grants: the engine holds the response that its admission gives. -/
theorem exec_take_of_offers {k : ReqKind} {p : PortId} {f : List Byte} {s : State} (h : s.Offers p f k.code) :
    exec (requestInstr k p .take) s = .next { (admission k (carryOf k) p f (s.takeFrom p)).st with
      engine := .busy p k.code (responseFrame (frameTag f) (admission k (carryOf k) p f (s.takeFrom p)).outcome
        (admission k (carryOf k) p f (s.takeFrom p)).body) } := by
  rw [exec_requestInstr]
  simp only [serve, serveFrame, h.grantedFrame, h.kind, beq_self_eq_true, if_true, takeRequest]

/-- Nor does an admission, whether it refuses the request or passes it on. -/
theorem admission_sameFront (k : ReqKind) (p : PortId) (f : List Byte) (s : State) :
    s.SameFront (admission k (carryOf k) p f s).st := by
  have renewed : ∀ a, s.SameFront (s.renew a) := fun a => (State.SameFront.refl _).setRow _ _
  unfold admission
  repeat' split
  all_goals
    first
    | exact .refl _
    | exact carryOf_sameFront _ _ _
    | exact renewed _
    | exact (renewed _).trans (carryOf_sameFront _ _ _)

theorem finOf_eq_some {n : Nat} {b : Byte} {a : Fin n} : finOf n b = some a ↔ b.toNat = a.val := by
  unfold finOf
  split
  · next h => simp [Fin.ext_iff]
  · next h => simp; omega

theorem finOf_eq_none {n : Nat} {b : Byte} : finOf n b = none ↔ n ≤ b.toNat := by
  unfold finOf
  split <;> simp <;> omega

/-- A request past checks 1 to 3 has renewed its session and is the kind's own from there on (R36, R39). -/
theorem admission_of_admits {k : ReqKind} {p : PortId} {f : List Byte} {a : Agent} {s : State}
    (h : s.Admits p k f a) (carry : Request → State → Answer) :
    admission k carry p f (s.takeFrom p) = carry (requestOf f a p (s.ticksLeft a)) (s.begun p a) := by
  have hs : sessionRefusal (s.row a) (frameEpoch f) p = none := by
    simp [sessionRefusal, h.attached, h.epoch, h.port]
  have hsup : (k.supervisorOnly && a != 0) = false := by
    cases hk : k.supervisorOnly
    · rfl
    · simp [h.supervisor hk]
  unfold admission
  simp only [finOf_eq_some.2 h.agent, h.notAttach, if_false, State.row_takeFrom, hs, hsup]
  rfl

/-- The whole of a request past checks 1 to 3. -/
theorem exec_of_admits {k : ReqKind} {p : PortId} {f : List Byte} {a : Agent} {s : State} (h : s.Admits p k f a) :
    exec (requestInstr k p .whole) s =
      .next ((carryOf k (requestOf f a p (s.ticksLeft a)) (s.begun p a)).st.answered p f
        (carryOf k (requestOf f a p (s.ticksLeft a)) (s.begun p a)).outcome
        (carryOf k (requestOf f a p (s.ticksLeft a)) (s.begun p a)).body) := by
  rw [exec_whole_of_offers h.offers, admission_of_admits h]

/-- ATTACH meets no session test (R38). -/
theorem exec_attach_of_offers {p : PortId} {f : List Byte} {a : Agent} {s : State}
    (h : s.Offers p f ReqKind.attach.code) (ha : (frameAgent f).toNat = a.val) :
    exec (.attach p .whole) s =
      .next ((carryAttach (requestOf f a p 0) (s.takeFrom p)).st.answered p f
        (carryAttach (requestOf f a p 0) (s.takeFrom p)).outcome
        (carryAttach (requestOf f a p 0) (s.takeFrom p)).body) := by
  have hadm : admission .attach carryAttach p f (s.takeFrom p) = carryAttach (requestOf f a p 0) (s.takeFrom p) := by
    simp only [admission, finOf_eq_some.2 ha, if_true]
  have := exec_whole_of_offers (k := .attach) h
  simpa only [requestInstr, carryOf, hadm] using this

/-! ### Checks 5 to 8 passed -/

theorem State.Names.resolve {s : State} {h : Handle} {r : Record} (n : s.Names h r) : s.resolve h = some r := by
  simp [State.resolve, n.1, n.2]

theorem State.Names.begun {s : State} {h : Handle} {r : Record} (n : s.Names h r) (p : PortId) (a : Agent) :
    (s.begun p a).Names h r := n

theorem onHandle_of_names {s : State} {h : Handle} {r : Record} (n : s.Names h r) (k : Record → Answer) :
    onHandle s h k = k r := by
  simp [onHandle, n.resolve]

theorem needRight_of_holds {s : State} {a : Agent} {c : ClassNo} {x : Right} (h : s.holds a c x = true) (k : Answer) :
    needRight s a c x k = k := by
  simp [needRight, h]

theorem needOwner_true (s : State) (k : Answer) : needOwner s true k = k := rfl

theorem needGuard_of_passes {g : Option (BitVec 16)} {r : Record} (h : GuardPasses g r) (s : State) (hd : Handle)
    (k : Answer) : needGuard s hd r g k = k := by
  rcases h with rfl | rfl <;> simp [needGuard]

end Sys2Proof.Machine
end

