-- ==== Sys2Proof/Laws/Frames.lean ====
section
/-! SUPPORT. Bytes and frames: the bits of a set's byte, the bytes of a 16-bit value, and what the split of a request
body into fields and guard answers (R40, R54, R180). -/
namespace Sys2Proof.Machine

/-! ### Sets as bytes -/

theorem bitsToNat_testBit (l : List Bool) (i : Nat) : (bitsToNat l).testBit i = l.getD i false := by
  induction l generalizing i with
  | nil => simp [bitsToNat]
  | cons b bs ih =>
    cases i with
    | zero => cases b <;> simp [bitsToNat]
    | succ i =>
      have : (bitsToNat (b :: bs)) / 2 = bitsToNat bs := by cases b <;> simp [bitsToNat] <;> omega
      rw [Nat.testBit_succ, this, ih]; simp

theorem mem_ofByte (n : Nat) (b : Byte) (i : Fin n) : (FinSet.ofByte n b).mem i = b.getLsbD i.val := by
  simp [FinSet.ofByte, FinSet.mem]

/-- Bit n of a set's byte tells of member n (R180). -/
theorem toByte_bit {n : Nat} (m : FinSet n) (hn : n ≤ 8) (i : Fin n) : m.toByte.getLsbD i.val = m.mem i := by
  unfold FinSet.toByte
  rw [BitVec.getLsbD_ofNat, bitsToNat_testBit]
  have h1 : i.val < 8 := by omega
  simp only [h1, decide_true, Bool.true_and]
  unfold FinSet.mem Tab.get
  have hs : i.val < m.cells.length := by rw [m.size_eq]; exact i.isLt
  simp [List.getD, List.getElem?_eq_getElem hs]

/-! ### 16-bit values -/

theorem word16_split (w : BitVec 16) : word16 (w.extractLsb' 8 8) (w.extractLsb' 0 8) = w := by
  unfold word16
  apply BitVec.eq_of_getLsbD_eq; intro i hi
  simp only [BitVec.getLsbD_append, BitVec.getLsbD_extractLsb']
  split
  · simp [show i < 8 by omega]
  · simp [show i - 8 < 8 by omega, show 8 + (i - 8) = i by omega]

theorem split_word16 (a b : Byte) : (word16 a b).extractLsb' 8 8 = a ∧ (word16 a b).extractLsb' 0 8 = b := by
  unfold word16
  constructor
  · apply BitVec.eq_of_getLsbD_eq; intro i hi
    rw [BitVec.getLsbD_extractLsb']
    simp only [hi, decide_true, Bool.true_and]
    exact (BitVec.getLsbD_append (x := a) (y := b)).trans (by simp [show ¬ 8 + i < 8 by omega])
  · apply BitVec.eq_of_getLsbD_eq; intro i hi
    rw [BitVec.getLsbD_extractLsb']
    simp only [hi, decide_true, Bool.true_and, Nat.zero_add]
    exact (BitVec.getLsbD_append (x := a) (y := b)).trans (by simp [hi])

theorem word16_eq {a b : Byte} {w : BitVec 16} : word16 a b = w ↔ a = w.extractLsb' 8 8 ∧ b = w.extractLsb' 0 8 := by
  constructor
  · rintro rfl; have := split_word16 a b; exact ⟨this.1.symm, this.2.symm⟩
  · rintro ⟨rfl, rfl⟩; exact word16_split w

/-! ### The body of a request -/

theorem guard_bit (o : Byte) : o &&& optGuard ≠ 0 ↔ o.getLsbD 7 = true := by revert o; decide

/-- The split of a body answers exactly on the bytes of the fields, followed by the two bytes of a guard when bit 7 of the
options is set, under options the kind accepts (R40). -/
theorem splitBody_iff {acc : Byte} {n : Nat} {o : Byte} {body bs : List Byte} {g : Option (BitVec 16)} :
    splitBody acc n o body = some (bs, g) ↔
      o &&& ~~~acc = 0 ∧ bs.length = n
        ∧ ((o.getLsbD 7 = false ∧ g = none ∧ body = bs)
          ∨ (o.getLsbD 7 = true ∧
              ∃ w : BitVec 16, g = some w ∧ body = bs ++ [w.extractLsb' 8 8, w.extractLsb' 0 8])) := by
  unfold splitBody optionsWithin
  by_cases h1 : o &&& ~~~acc = 0
  · simp only [h1, beq_self_eq_true, Bool.not_true, Bool.false_eq_true, if_false, true_and]
    by_cases h2 : o.getLsbD 7 = true
    · rw [if_pos ((guard_bit o).2 h2)]
      simp only [h2, Bool.true_eq_false, false_and, true_and, false_or]
      constructor
      · intro h; split at h
        · next hl =>
          simp only [Option.some.injEq, Prod.mk.injEq] at h
          obtain ⟨rfl, rfl⟩ := h
          refine ⟨by simp [hl], _, rfl, ?_⟩
          obtain ⟨a, b, hab⟩ : ∃ a b, body.drop n = [a, b] := by
            match h : body.drop n, (show (body.drop n).length = 2 by simp [hl]) with
            | [a, b], _ => exact ⟨a, b, rfl⟩
          have e : body = body.take n ++ [a, b] := by rw [← hab]; simp
          have hn : (body.take n).length = n := by simp [hl]
          have e1 : body.getD n 0 = a := by rw [e]; simp [List.getD, hn]
          have e2 : body.getD (n+1) 0 = b := by rw [e]; simp [List.getD, hn]
          have := split_word16 a b
          rw [e1, e2, this.1, this.2]; exact e
        · cases h
      · rintro ⟨rfl, w, rfl, rfl⟩
        simp [List.getD, word16_split]
    · have h2 : o.getLsbD 7 = false := by simpa using h2
      rw [if_neg (by rw [guard_bit, h2]; simp)]
      simp only [h2, Bool.false_eq_true, false_and, true_and, or_false]
      constructor
      · intro h; split at h
        · next hl => simp only [Option.some.injEq, Prod.mk.injEq] at h; obtain ⟨rfl, rfl⟩ := h; exact ⟨hl, rfl, rfl⟩
        · cases h
      · rintro ⟨rfl, rfl, rfl⟩; simp
  · simp [h1]; intro h; exact absurd h h1

end Sys2Proof.Machine
end

