-- ==== Sys2Proof/Laws/Ops.lean ====
section
/-! SUPPORT. What each shared operation does, said once: values and sets, the key index, notices and the update queue,
attention conditions, handover, the lapse of a session, parking, timers, transactions, and the field readers. -/
namespace Sys2Proof.Machine

/-! ### Values, tables and searches -/

theorem within_iff {v lo hi : Value} : within v lo hi = true ↔ lo.toInt ≤ v.toInt ∧ v.toInt ≤ hi.toInt := by
  simp [within, BitVec.sle_eq_decide]

theorem loadCount_some (n : Nat) : loadCount (some n) = if n = 0 then none else some n := by
  cases n <;> rfl

/-- A search through the numbers below `n` finds the lowest that passes. -/
theorem find_lowest {n : Nat} (P : Fin n → Bool) (g : Fin n) (h : P g = true) (hl : ∀ b, b < g → P b = false) :
    (List.finRange n).find? P = some g := by
  rw [List.find?_eq_some_iff_append]
  refine ⟨h, ?_⟩
  obtain ⟨as, bs, hab⟩ := List.append_of_mem (List.mem_finRange g)
  refine ⟨as, bs, hab, fun b hb => ?_⟩
  have hs := List.pairwise_lt_finRange n
  rw [hab, List.pairwise_append] at hs
  simp [hl b (hs.2.2 b hb g (by simp))]

theorem find_none {n : Nat} (P : Fin n → Bool) (h : ∀ i, P i = false) : (List.finRange n).find? P = none := by
  rw [List.find?_eq_none]; simp [h]

theorem Tab.cells_any {n : Nat} {α : Type} (t : Tab n α) (P : α → Bool) :
    t.cells.any P = true ↔ ∃ i, P (t.get i) = true := by
  rw [List.any_eq_true]
  constructor
  · rintro ⟨x, hx, hP⟩
    obtain ⟨i, hi, rfl⟩ := List.getElem_of_mem hx
    exact ⟨⟨i, by rw [← t.size_eq]; exact hi⟩, hP⟩
  · rintro ⟨i, hi⟩
    exact ⟨_, List.getElem_mem _, hi⟩

theorem finOf_byteOf {n : Nat} (hn : n ≤ 256) (i : Fin n) : finOf n (byteOf i.val) = some i := by
  rw [finOf_eq_some]; simp [byteOf]; omega

theorem parseNone_nil {o : Byte} {body : List Byte} (ho : o = 0) (hb : body = []) : parseNone o body = some () := by
  simp [ho, hb, parseNone, splitBody, optionsWithin, optGuard]

/-- The limit test of a TUNE passes exactly when the record keeps the law of R2 (R98). -/
theorem limitConflict_none_iff {r : Record} : r.limitConflict = none ↔ r.LimitsLaw := by
  unfold Record.limitConflict Record.LimitsLaw
  simp only [BitVec.sle_eq_not_slt]
  cases h : r.staged <;> (repeat' split) <;> simp_all

/-! ### The key index (R10, R11) -/

theorem mem_insertKey (k : Key) (i : SlotNo) (l : List (Key × SlotNo)) (e : Key × SlotNo) :
    e ∈ insertKey k i l ↔ e = (k, i) ∨ e ∈ l := by
  induction l with
  | nil => simp [insertKey]
  | cons x xs ih =>
    unfold insertKey; split
    · simp
    · simp [ih]; tauto

theorem pairwise_insertKey (k : Key) (i : SlotNo) (l : List (Key × SlotNo))
    (h : l.Pairwise (fun e g => e.1.toNat < g.1.toNat)) (hk : ∀ e ∈ l, e.1 ≠ k) :
    (insertKey k i l).Pairwise (fun e g => e.1.toNat < g.1.toNat) := by
  induction l with
  | nil => simp [insertKey]
  | cons x xs ih =>
    unfold insertKey
    rw [List.pairwise_cons] at h
    split
    · next hlt =>
      refine List.pairwise_cons.2 ⟨fun e he => ?_, List.pairwise_cons.2 h⟩
      rcases List.mem_cons.1 he with rfl | he
      · exact hlt
      · exact Nat.lt_trans hlt (h.1 e he)
    · next hlt =>
      refine List.pairwise_cons.2 ⟨fun e he => ?_, ih h.2 fun e he => hk e (List.mem_cons_of_mem _ he)⟩
      rcases (mem_insertKey _ _ _ _).1 he with rfl | he
      · have : x.1.toNat ≠ k.toNat := fun hh => hk x List.mem_cons_self (BitVec.eq_of_toNat_eq hh)
        show x.1.toNat < k.toNat
        omega
      · exact h.1 e he

theorem findKey_none {k : Key} {l : List (Key × SlotNo)} : findKey k l = none ↔ ∀ e ∈ l, e.1 ≠ k := by
  induction l with
  | nil => simp [findKey]
  | cons x xs ih => simp only [findKey]; split <;> simp_all

theorem findKey_some {k : Key} {l : List (Key × SlotNo)} {i : SlotNo} (h : findKey k l = some i) : (k, i) ∈ l := by
  induction l with
  | nil => simp [findKey] at h
  | cons x xs ih =>
    simp only [findKey] at h; split at h
    · next hh => subst hh; cases h; simp
    · exact List.mem_cons_of_mem _ (ih h)

theorem mem_eraseKey (k : Key) (l : List (Key × SlotNo)) (e : Key × SlotNo) :
    e ∈ eraseKey k l ↔ e ∈ l ∧ e.1 ≠ k := by
  simp [eraseKey]

/-! ### Records and handles -/

theorem resolve_none {s : State} {h : Handle} (hh : s.record h.slot = none ∨ (s.slots.get h.slot).inc ≠ h.inc) :
    s.resolve h = none := by
  rcases hh with hh | hh <;> simp [State.resolve, hh]

theorem handleOf_setRecord (s : State) (i j : SlotNo) (r : Option Record) :
    (s.setRecord i r).handleOf j = s.handleOf j := by
  simp [State.handleOf]

theorem mem_heldSlots (s : State) (a : Agent) (i : SlotNo) :
    i ∈ s.heldSlots a ↔ ∃ r, s.record i = some r ∧ r.state = .held a := by
  unfold State.heldSlots allSlots
  rw [List.mem_filter]
  cases s.record i <;> simp [Record.heldBy, List.mem_finRange]

theorem nodup_heldSlots (s : State) (a : Agent) : (s.heldSlots a).Nodup := (List.nodup_finRange 256).filter _

theorem record_dropAgent (s : State) (a : Agent) (i : SlotNo) :
    (s.dropAgent a).record i = (s.record i).map (Record.dropAgent · a) := by
  simp [State.dropAgent, State.record]

/-! ### Notices and the update queue (R141, R147) -/

theorem enqueue_channels (u : Update) (q : List Update) :
    (enqueue u q).map (·.channel) =
      if u.channel ∈ q.map (·.channel) then q.map (·.channel) else q.map (·.channel) ++ [u.channel] := by
  induction q with
  | nil => simp [enqueue]
  | cons v vs ih =>
    unfold enqueue
    split
    · next h => simp [h]
    · next h => simp only [List.map_cons, ih, List.mem_cons, Ne.symm h, false_or]; split <;> simp

theorem enqueue_nodup (u : Update) (q : List Update) (h : (q.map (·.channel)).Nodup) :
    ((enqueue u q).map (·.channel)).Nodup := by
  rw [enqueue_channels]; split
  · exact h
  · next hn =>
    rw [List.nodup_append]
    refine ⟨h, by simp, fun a ha b hb hab => ?_⟩
    simp at hb; subst hb; subst hab; exact hn ha

theorem mem_enqueue (u v : Update) (q : List Update) (h : (q.map (·.channel)).Nodup) :
    v ∈ enqueue u q ↔ v = u ∨ (v ∈ q ∧ v.channel ≠ u.channel) := by
  induction q with
  | nil => simp [enqueue]
  | cons w ws ih =>
    rw [List.map_cons, List.nodup_cons] at h
    unfold enqueue
    split
    · next hc =>
      simp only [List.mem_cons]
      constructor
      · rintro (h1 | h1)
        · exact .inl h1
        · refine .inr ⟨.inr h1, fun h2 => h.1 ?_⟩
          rw [hc, ← h2]; exact List.mem_map_of_mem h1
      · rintro (h1 | ⟨h1 | h1, h2⟩)
        · exact .inl h1
        · subst h1; exact absurd hc h2
        · exact .inr h1
    · next hc =>
      simp only [List.mem_cons, ih h.2]
      constructor
      · rintro (h1 | h1 | h1)
        · subst h1; exact .inr ⟨.inl rfl, hc⟩
        · exact .inl h1
        · exact .inr ⟨.inr h1.1, h1.2⟩
      · rintro (h1 | ⟨h1 | h1, h2⟩)
        · exact .inr (.inl h1)
        · exact .inl h1
        · exact .inr (.inr ⟨h1, h2⟩)

theorem channel_notice (s : State) (c d : ChannelNo) (k : UpdKind) (v : Value) :
    (s.notice c k v).channel d = if c = d then { (s.channel d) with driven := v } else s.channel d := by
  unfold State.notice State.channel
  simp [Tab.get_set]
  split <;> simp_all

/-- A change of live value sends a notice exactly when the record is bound and the value changed (R141). -/
theorem noticeChange_cases (s : State) (b : Option ChannelNo) (old new : Value) :
    ((b = none ∨ old = new) ∧ s.noticeChange b old new = s)
      ∨ ∃ c, b = some c ∧ old ≠ new ∧ s.noticeChange b old new = s.notice c .value new := by
  unfold State.noticeChange
  split
  · exact .inl ⟨.inl rfl, rfl⟩
  · split
    · next h => exact .inl ⟨.inr h, rfl⟩
    · next c h => exact .inr ⟨c, rfl, h, rfl⟩

theorem slots_noticeChange (s : State) (b : Option ChannelNo) (old new : Value) :
    (s.noticeChange b old new).slots = s.slots := by
  rcases noticeChange_cases s b old new with ⟨-, h⟩ | ⟨c, -, -, h⟩ <;> rw [h] <;> rfl

theorem row_noticeChange (s : State) (b : Option ChannelNo) (old new : Value) (a : Agent) :
    (s.noticeChange b old new).row a = s.row a := by
  rcases noticeChange_cases s b old new with ⟨-, h⟩ | ⟨c, -, -, h⟩ <;> rw [h] <;> rfl

theorem channel_parkChannel (s : State) (c d : ChannelNo) : (s.parkChannel c).channel d =
    if c = d then { (s.channel d) with binding := none, driven := (s.channel d).park } else s.channel d := by
  unfold State.parkChannel
  rw [channel_notice]
  by_cases h : c = d
  · subst h; simp
  · simp [h]

/-! ### Attention conditions (R131) -/

/-- The session of a row: all but its list and its OVERFLOW. -/
structure AgentRow.SameSession (x y : AgentRow) : Prop where
  state : y.state = x.state
  epoch : y.epoch = x.epoch
  port : y.port = x.port
  period : y.period = x.period
  countdown : y.countdown = x.countdown
  expired : y.expired = x.expired

theorem AgentRow.SameSession.refl (x : AgentRow) : x.SameSession x := ⟨rfl, rfl, rfl, rfl, rfl, rfl⟩
theorem AgentRow.SameSession.trans {x y z : AgentRow} (h : x.SameSession y) (g : y.SameSession z) : x.SameSession z :=
  ⟨g.1.trans h.1, g.2.trans h.2, g.3.trans h.3, g.4.trans h.4, g.5.trans h.5, g.6.trans h.6⟩

theorem condition_sameSession (x : AgentRow) (r : Reason) (h : Handle) (k : Key) :
    x.SameSession (x.condition r h k) := by
  unfold AgentRow.condition
  repeat' split
  all_goals exact ⟨rfl, rfl, rfl, rfl, rfl, rfl⟩

theorem row_condition (s : State) (a b : Agent) (x : Reason) (h : Handle) (k : Key) :
    (s.condition a x h k).row b = if a = b then (s.row b).condition x h k else s.row b := by
  unfold State.condition
  by_cases h' : a = b
  · subst h'; simp
  · simp [h']

theorem row_conditionAll (s : State) (w : AgentSet) (b : Agent) (x : Reason) (h : Handle) (k : Key) :
    (s.conditionAll w x h k).row b = if w.mem b then (s.row b).condition x h k else s.row b := by
  simp [State.conditionAll, State.row]

/-! ### What the work on one record leaves alone -/

/-- The parts of the state that staging, handover, lapse steps and sweep steps leave as they are. -/
structure State.SameAround (s t : State) : Prop where
  inc : ∀ i, (t.slots.get i).inc = (s.slots.get i).inc
  keyIndex : t.keyIndex = s.keyIndex
  freeList : t.freeList = s.freeList
  rights : t.rights = s.rights
  groups : t.groups = s.groups
  sweep : t.sweep = s.sweep
  link : t.link = s.link
  channels : ∀ c, (t.channel c).binding = (s.channel c).binding ∧ (t.channel c).park = (s.channel c).park
    ∧ (t.channel c).acked = (s.channel c).acked
  rows : ∀ b, (s.row b).SameSession (t.row b)
  lostAgents : t.lostAgents = s.lostAgents
  linkStalled : t.linkStalled = s.linkStalled

namespace State.SameAround
variable {s t u : State}

theorem refl (s : State) : s.SameAround s :=
  ⟨fun _ => rfl, rfl, rfl, rfl, rfl, rfl, rfl, fun _ => ⟨rfl, rfl, rfl⟩, fun _ => .refl _, rfl, rfl⟩
theorem trans (h : s.SameAround t) (g : t.SameAround u) : s.SameAround u :=
  ⟨fun i => (g.1 i).trans (h.1 i), g.2.trans h.2, g.3.trans h.3, g.4.trans h.4, g.5.trans h.5, g.6.trans h.6,
   g.7.trans h.7, fun c => ⟨(g.8 c).1.trans (h.8 c).1, (g.8 c).2.1.trans (h.8 c).2.1,
     (g.8 c).2.2.trans (h.8 c).2.2⟩, fun b => (h.9 b).trans (g.9 b), g.10.trans h.10, g.11.trans h.11⟩
theorem setRecord (s : State) (i : SlotNo) (r : Option Record) : s.SameAround (s.setRecord i r) :=
  ⟨fun _ => by simp, rfl, rfl, rfl, rfl, rfl, rfl, fun _ => ⟨rfl, rfl, rfl⟩, fun _ => .refl _, rfl, rfl⟩
theorem condition (s : State) (a : Agent) (x : Reason) (h : Handle) (k : Key) : s.SameAround (s.condition a x h k) :=
  ⟨fun _ => rfl, rfl, rfl, rfl, rfl, rfl, rfl, fun _ => ⟨rfl, rfl, rfl⟩, fun b => by
    rw [row_condition]; split
    · exact condition_sameSession _ _ _ _
    · exact .refl _, rfl, rfl⟩
theorem conditionAll (s : State) (w : AgentSet) (x : Reason) (h : Handle) (k : Key) :
    s.SameAround (s.conditionAll w x h k) :=
  ⟨fun _ => rfl, rfl, rfl, rfl, rfl, rfl, rfl, fun _ => ⟨rfl, rfl, rfl⟩, fun b => by
    rw [row_conditionAll]; split
    · exact condition_sameSession _ _ _ _
    · exact .refl _, rfl, rfl⟩
theorem notice (s : State) (c : ChannelNo) (k : UpdKind) (v : Value) : s.SameAround (s.notice c k v) :=
  ⟨fun _ => rfl, rfl, rfl, rfl, rfl, rfl, rfl, fun d => by rw [channel_notice]; split <;> exact ⟨rfl, rfl, rfl⟩,
   fun _ => .refl _, rfl, rfl⟩
theorem noticeChange (s : State) (b : Option ChannelNo) (old new : Value) :
    s.SameAround (s.noticeChange b old new) := by
  rcases noticeChange_cases s b old new with ⟨-, h⟩ | ⟨c, -, -, h⟩
  · rw [h]; exact refl s
  · rw [h]; exact notice _ _ _ _
theorem liveChanged (s : State) (i : SlotNo) (r : Record) (new : Value) (who : AgentSet) :
    s.SameAround (s.liveChanged i r new who) := by
  unfold State.liveChanged; split
  · exact refl s
  · exact (noticeChange _ _ _ _).trans (conditionAll _ _ _ _ _)
theorem handOver (s : State) (i : SlotNo) (r : Record) (a : Agent) : s.SameAround (s.handOver i r a) := by
  unfold State.handOver; repeat' split
  · exact setRecord _ _ _
  · exact setRecord _ _ _
  · exact (setRecord _ _ _).trans (condition _ _ _ _ _)
theorem releaseSlot (a : Agent) (s : State) (i : SlotNo) : s.SameAround (s.releaseSlot a i) := by
  unfold State.releaseSlot; split
  · exact refl s
  · exact handOver _ _ _ _
theorem lapseStep (s : State) (i : SlotNo) : s.SameAround (s.lapseStep i) := by
  unfold State.lapseStep; split
  · exact refl s
  · dsimp only; split
    · exact ((setRecord _ _ _).trans (noticeChange _ _ _ _)).trans (conditionAll _ _ _ _ _)
    · exact (((setRecord _ _ _).trans (noticeChange _ _ _ _)).trans (conditionAll _ _ _ _ _)).trans
        (condition _ _ _ _ _)
theorem foldl {α : Type} {f : State → α → State} (hf : ∀ (t : State) (a : α), t.SameAround (f t a)) :
    ∀ (l : List α) (s : State), s.SameAround (l.foldl f s)
  | [], s => refl s
  | a :: l, s => (hf s a).trans (foldl hf l (f s a))

end State.SameAround

/-! ### Handover (R72, R80) -/

theorem record_releaseSlot (s : State) (a : Agent) (i j : SlotNo) :
    (s.releaseSlot a i).record j = if j = i then (s.record i).map Record.passOn else s.record j := by
  unfold State.releaseSlot
  cases h : s.record i with
  | none => simp; intro hh; rw [hh, h]
  | some r =>
    have key : ∀ t : State, t.slots = (s.setRecord i (some r.passOn)).slots →
        t.record j = if j = i then some r.passOn else s.record j := by
      intro t ht
      have : t.record j = (s.setRecord i (some r.passOn)).record j := by unfold State.record; rw [ht]
      rw [this]
      by_cases hj : j = i
      · subst hj; simp
      · simp [hj, Ne.symm hj]
    unfold State.handOver
    dsimp only
    split
    · exact key _ rfl
    · split <;> exact key _ rfl

/-- What one handover at DETACH gives another agent: GRANTED, when it is the head waiter (R73). -/
theorem row_releaseSlot {s : State} {i : SlotNo} {r : Record} (hr : s.record i = some r) {a b : Agent} (hb : b ≠ a) :
    (s.releaseSlot a i).row b =
      if r.queue.head? = some b then (s.row b).condition .granted (s.handleOf i) r.key else s.row b := by
  unfold State.releaseSlot
  rw [hr]
  unfold State.handOver
  dsimp only
  cases hq : r.queue with
  | nil => rfl
  | cons w ws =>
    dsimp only
    split
    · next hw => subst hw; rw [if_neg (by simpa using Ne.symm hb)]; rfl
    · rw [row_condition]
      by_cases h : w = b
      · subst h; rw [if_pos rfl]; exact (if_pos rfl).symm
      · rw [if_neg h, if_neg (by simpa using h)]; rfl

theorem row_releaseSlot_of_not_head (s : State) (a : Agent) (i : SlotNo) (b : Agent)
    (h : ∀ r, s.record i = some r → r.queue.head? ≠ some b) : (s.releaseSlot a i).row b = s.row b := by
  unfold State.releaseSlot
  cases hr : s.record i with
  | none => rfl
  | some r =>
    unfold State.handOver
    dsimp only
    split
    · rfl
    · next w ws hq =>
      split
      · rfl
      · rw [row_condition, if_neg]
        · rfl
        · rintro rfl; exact h r hr (by simp [hq])

theorem record_foldl_releaseSlot (a : Agent) (l : List SlotNo) (hl : l.Nodup) (s : State) (j : SlotNo) :
    (l.foldl (State.releaseSlot a) s).record j = if j ∈ l then (s.record j).map Record.passOn else s.record j := by
  induction l generalizing s with
  | nil => simp
  | cons i l ih =>
    rw [List.nodup_cons] at hl
    rw [List.foldl_cons, ih hl.2, record_releaseSlot]
    by_cases hj : j = i
    · subst hj; simp [hl.1]
    · simp [hj]

theorem row_foldl_releaseSlot (a : Agent) (l : List SlotNo) (hl : l.Nodup) (s : State) (b : Agent)
    (h : ∀ i ∈ l, ∀ r, s.record i = some r → r.queue.head? ≠ some b) :
    (l.foldl (State.releaseSlot a) s).row b = s.row b := by
  induction l generalizing s with
  | nil => rfl
  | cons i l ih =>
    rw [List.nodup_cons] at hl
    rw [List.foldl_cons, ih hl.2, row_releaseSlot_of_not_head]
    · exact h i (by simp)
    · intro j hj r hr
      rw [record_releaseSlot, if_neg (by rintro rfl; exact hl.1 hj)] at hr
      exact h j (List.mem_cons_of_mem _ hj) r hr

/-! ### The lapse of a session (R61, R62) -/

theorem lapseStep_some {s : State} {i : SlotNo} {r : Record} (h : s.record i = some r) :
    s.lapseStep i =
      (let r' := r.afterLapse (s.triggerOf r.group)
       let s' := ((s.setRecord i (some r')).noticeChange r.binding r.live r'.live).conditionAll r.watchers .lapsed
        (s.handleOf i) r.key
       match r.queue with
       | [] => s'
       | w :: _ => s'.condition w .grantedAfterLapse (s.handleOf i) r.key) := by
  unfold State.lapseStep; rw [h] <;> rfl

theorem record_lapseStep (s : State) (i j : SlotNo) :
    (s.lapseStep i).record j =
      if j = i then (s.record i).map (fun r => r.afterLapse (s.triggerOf r.group)) else s.record j := by
  cases h : s.record i with
  | none =>
    have : s.lapseStep i = s := by unfold State.lapseStep; rw [h]
    rw [this]; split <;> simp_all
  | some r =>
    rw [lapseStep_some h]
    have key : ∀ t : State, t.slots = (s.setRecord i (some (r.afterLapse (s.triggerOf r.group)))).slots →
        t.record j = if j = i then (some r).map (fun r => r.afterLapse (s.triggerOf r.group)) else s.record j := by
      intro t ht
      have : t.record j = (s.setRecord i (some (r.afterLapse (s.triggerOf r.group)))).record j := by
        unfold State.record; rw [ht]
      rw [this]
      by_cases hj : j = i
      · subst hj; simp
      · simp [hj, Ne.symm hj]
    dsimp only
    split <;> exact key _ (slots_noticeChange _ _ _ _)

theorem record_foldl_lapseStep (l : List SlotNo) (hl : l.Nodup) (s : State) (j : SlotNo) :
    (l.foldl State.lapseStep s).record j =
      if j ∈ l then (s.record j).map (fun r => r.afterLapse (s.triggerOf r.group)) else s.record j := by
  induction l generalizing s with
  | nil => simp
  | cons i l ih =>
    rw [List.nodup_cons] at hl
    have htr : ∀ g, (s.lapseStep i).triggerOf g = s.triggerOf g := by
      intro g; unfold State.triggerOf State.group; rw [(State.SameAround.lapseStep s i).groups]
    rw [List.foldl_cons, ih hl.2, record_lapseStep]
    simp only [htr]
    by_cases hj : j = i
    · subst hj; simp [hl.1]
    · simp [hj]

theorem record_loseSession (s : State) (a : Agent) (i : SlotNo) :
    (s.loseSession a).record i = (s.record i).map (Record.dropAgent · a) := by
  have : ∀ t : State, (t.clearSupervisor a).record i = t.record i := by
    intro t; unfold State.clearSupervisor; split <;> rfl
  unfold State.loseSession; rw [this, record_dropAgent]; rfl

theorem row_loseSession (s : State) (a b : Agent) :
    (s.loseSession a).row b = if b = a then (s.row a).lose else s.row b := by
  have : ∀ t : State, (t.clearSupervisor a).row b = t.row b := by
    intro t; unfold State.clearSupervisor; split <;> rfl
  unfold State.loseSession; rw [this]
  show (s.setRow a (s.row a).lose).row b = _
  by_cases h : b = a
  · subst h; simp
  · simp [h, Ne.symm h]

/-! ### Parking the bound channels (R67) -/

theorem insertRanked_perm (rank : ChannelNo → Nat) (c : ChannelNo) (l : List ChannelNo) :
    (insertRanked rank c l).Perm (c :: l) := by
  induction l with
  | nil => exact .refl _
  | cons d ds ih =>
    unfold insertRanked; split
    · exact .refl _
    · exact (ih.cons d).trans (.swap c d ds)

/-- Whatever the free ranking, every channel appears exactly as often as before (log 9). -/
theorem rankOrder_perm (rank : ChannelNo → Nat) (cs : List ChannelNo) : (rankOrder rank cs).Perm cs := by
  unfold rankOrder
  induction cs with
  | nil => exact .refl _
  | cons c cs ih => exact (insertRanked_perm _ _ _).trans (ih.cons c)

theorem channel_foldl_parkChannel (l : List ChannelNo) (s : State) (c : ChannelNo) :
    (l.foldl State.parkChannel s).channel c =
      if c ∈ l then { (s.channel c) with binding := none, driven := (s.channel c).park } else s.channel c := by
  induction l generalizing s with
  | nil => simp
  | cons d l ih =>
    rw [List.foldl_cons, ih, channel_parkChannel]
    by_cases hd : d = c
    · subst hd; simp
    · simp [hd, Ne.symm hd]

/-! ### Sweep work (R119) -/

theorem applyWork_cases (r : Record) :
    (r.staged = none ∧ r.safePending = false ∧ r.applyWork = none)
      ∨ (∃ v, r.staged = some v ∧ r.applyWork = some { r with live := v, staged := none, safePending := false })
      ∨ (r.staged = none ∧ r.safePending = true
          ∧ r.applyWork = some { r with live := r.safe, staged := none, safePending := false }) := by
  unfold Record.applyWork
  cases h : r.staged with
  | some v => exact .inr (.inl ⟨v, rfl, rfl⟩)
  | none =>
    cases hp : r.safePending
    · exact .inl ⟨rfl, rfl, by simp⟩
    · refine .inr (.inr ⟨rfl, rfl, ?_⟩)
      simp [← h]

theorem aboveCursor_iff (c : Option SlotNo) (i : SlotNo) : aboveCursor c i = true ↔ ∀ j, c = some j → j < i := by
  unfold aboveCursor; split <;> simp

/-! ### Timers (R51, R109, R151) -/

theorem expireLink_eq (s : State) :
    s.expireLink = { s with link := s.expireLink.link, linkStalled := s.expireLink.linkStalled } := by
  unfold State.expireLink; repeat' split
  all_goals rfl

theorem row_expireAll (s : State) (a : Agent) : s.expireAll.row a = (s.row a).expire := by
  unfold State.expireAll; rw [expireLink_eq]; simp [State.row]

theorem group_expireAll (s : State) (g : GroupNo) : s.expireAll.group g = (s.group g).expire := by
  unfold State.expireAll; rw [expireLink_eq]; simp [State.group]

theorem expireAll_of_taken {s : State} (h : s.ExpiriesTaken) : s.expireAll = s := by
  obtain ⟨h1, h2, h3⟩ := h
  have e1 : s.agents.map AgentRow.expire = s.agents := by
    apply Tab.ext_get; intro i; rw [Tab.get_map]; exact if_neg (h1 i)
  have e2 : s.groups.map Group.expire = s.groups := by
    apply Tab.ext_get; intro i; rw [Tab.get_map]; exact if_neg fun h => h2 i h.1 h.2
  unfold State.expireAll; rw [e1, e2]
  show s.expireLink = s
  unfold State.expireLink; split
  · next f n hh => exact absurd hh (h3 f n)
  · rfl

/-! ### Transactions (R159) -/

theorem setPort_setTxn (s : State) (p : PortId) (t : Txn) (q : Port) : (s.setTxn p t).setPort p q = s.setPort p q := by
  unfold State.setTxn State.setPort
  simp only [State.mk.injEq, true_and, and_true]
  apply Tab.ext_get; intro i
  simp only [Tab.get_set]; split <;> rfl

/-- A transaction of a port that can run it whole: what the first byte settles, then the deassertion (log 4). -/
theorem transaction_whole {s : State} {p : PortId} (h : s.CanTransact p) (first : Byte) (n : Nat)
    (act : Txn → State → State) :
    transaction p first n act s = act (s.settle p first) (s.setTxn p (s.settle p first)) := by
  unfold transaction firstByte
  rw [if_neg h.1, if_neg h.1, if_pos h.2]
  congr 1
  simp [State.setTxn]

theorem State.CanTransact.canEnd {s : State} {p : PortId} (h : s.CanTransact p) (t : Txn) : s.CanEnd p t :=
  ⟨h.1, .inl h.2⟩

/-- The deassertion of a transaction whose kind `t` is the one its first byte gives, whether settled just before or
earlier (log 4). -/
theorem transaction_of_canEnd {s : State} {p : PortId} {t : Txn} {first : Byte} (h : s.CanEnd p t)
    (ht : s.settle p first = t) (hi : t ≠ .idle) (n : Nat) (act : Txn → State → State) :
    transaction p first n act s = act t (s.setTxn p t) := by
  rcases h with ⟨hp, h | h⟩
  · rw [transaction_whole ⟨hp, h⟩, ht]
  · have hs : s.setTxn p t = s := by
      unfold State.setTxn State.setPort
      rw [← h]
      congr 1
      apply Tab.ext_get; intro i
      rw [Tab.get_set]; split
      · next hip => subst hip; rfl
      · rfl
    unfold transaction firstByte
    rw [if_neg hp, if_neg hp, if_neg (by rw [h]; exact hi), hs, h]

/-- A transaction while nRST is low (R173). -/
theorem unanswered_of_inReset {s : State} {p : PortId} (h : s.phase = .inReset) {c : Instr} {first : Byte} {n : Nat}
    {act : Txn → State → State} (hc : exec c s = .next (transaction p first n act s)) : s.Unanswered p c :=
  ⟨_, _, by rw [hc, transaction, if_pos h]; rfl⟩

/-! ### Refusals (R36) -/

/-- An execution that ends in an outcome other than DONE and QUEUED has written nothing. -/
theorem carryOf_refusal (k : ReqKind) (q : Request) (s : State) :
    (carryOf k q s).outcome ≠ .done → (carryOf k q s).outcome ≠ .queued → (carryOf k q s).st = s := by
  cases k
  all_goals
    simp only [carryOf, carryAttach, carryDetach, carryKeepalive, carryQueryAgent, carryRestart, carrySetRights,
      carryCreate, carryRetire, carryLookup, carryRead, carryEnumerate, carryClaim, carryRelease, carryCancelClaim,
      carryRevoke, carryRestore, carryStage, carryUnstage, carryTune, carryApply, carrySetGroup, carryQueryGroup,
      carryWatch, carryUnwatch, carryFetchAttention, carryBind, carryUnbind, carrySetPark, carryQueryChannel,
      carryLinkResume, onHandle, needRight, needOwner, needGuard, claimDecision, claimNow, stageAccepted, tuneAccepted,
      refuse]
    repeat' split
    all_goals first | (intro _ _; rfl) | (intro h _; exact absurd rfl h) | (intro _ h; exact absurd rfl h)

end Sys2Proof.Machine
end

