-- ==== Sys2Proof/Tests/Slice0.lean ====
section
/-! SUPPORT. The author's own tests: the check of ill-formed commands, frames of chapter 11 written out, single steps on
small states, and for each statement with hypotheses a state and operands that meet them. -/
namespace Sys2Proof.Tests
open Sys2Proof.Machine

set_option maxRecDepth 4000

/-! ### Well-formedness -/

theorem test_unknownTransaction_refuses_assigned_first_byte :
    (Instr.unknownTransaction 0 0xA2 8).wellFormed = false := by decide
theorem test_unknownTransaction_accepts_unassigned_first_byte :
    (Instr.unknownTransaction 0 0xA6 8).wellFormed = true := by decide

/-! ### States and frames for the tests -/

/-- READY, nothing attached, no rights given. -/
def ready : State := { State.reset with phase := .ready, freeList := allSlots, pointer := .internal }

/-- READY with every right given to every agent. -/
def able : State := { ready with rights := Tab.replicate 7 (Tab.replicate 8 (FinSet.full 7)) }

/-- A request frame of chapter 11. -/
def frameOf (code agent epoch options : Byte) (body : List Byte) : List Byte :=
  let front := byteOf (body.length + 7) :: agent :: epoch :: 9 :: code :: options :: body
  front ++ [crc8 front]

/-- The frame of a request of kind `k` by agent `a` in epoch 1. -/
def ask (k : ReqKind) (a : Agent) (options : Byte) (body : List Byte) : List Byte :=
  frameOf k.code (byteOf a.val) 1 options body

/-- A session in epoch 1 through port 0. -/
def session : AgentRow :=
  { AgentRow.powerOn with state := .attached, epoch := 1, port := some 0, period := some 100, countdown := some 100 }

/-- `s` with the frame `f` submitted on port 0 and agent `a` attached through it; port 0 comes next. -/
def pose (s : State) (f : List Byte) (a : Agent) : State :=
  { (s.setPort 0 { Port.powerOn with request := .submitted f }).setRow a session with
    phase := .ready, engine := .free, pointer := .internal }

/-- An active record. -/
def sample : Record :=
  { key := 0x0410, cls := 2, group := 3, state := .opened, min := 0xFF9C, max := 0x0064, live := 0, staged := none
    safe := 0xFF9C, policy := .safeNow, safePending := false, revision := 0xFFFF, binding := none, queue := []
    watchers := FinSet.empty 8 }

/-- The record `r` in slot 5, and a request of kind `k` about it by agent `a`, who has every right. -/
def on (r : Record) (k : ReqKind) (a : Agent) (options : Byte) (body : List Byte) : State :=
  pose (able.setRecord 5 (some r)) (ask k a options body) a

theorem frameOptions_frameOf (c a e o : Byte) (b : List Byte) : frameOptions (frameOf c a e o b) = o := rfl
theorem frameKind_frameOf (c a e o : Byte) (b : List Byte) : frameKind (frameOf c a e o b) = c := rfl
theorem frameBody_frameOf (c a e o : Byte) (b : List Byte) : frameBody (frameOf c a e o b) = b := by
  simp [frameBody, frameOf]

theorem port_pose (s : State) (f : List Byte) (a : Agent) :
    (pose s f a).port 0 = { Port.powerOn with request := .submitted f } := by
  simp [pose, State.port, State.setRow, State.setPort]

theorem grant_pose (s : State) (f : List Byte) (a : Agent) : (pose s f a).grant = some (.port 0) := by
  have : (pose s f a).hasWork (.port 0) = true := by
    simp [State.hasWork, Port.isSubmitted, port_pose]
  unfold State.grant
  rw [if_pos ⟨rfl, rfl⟩]
  show List.find? (pose s f a).hasWork [.port 0, .port 1, .internal] = _
  rw [List.find?_cons_of_pos this]

/-- The arbiter grants the port of a posed request. -/
theorem pose_offers (s : State) (f : List Byte) (a : Agent) : (pose s f a).Offers 0 f (frameKind f) :=
  ⟨grant_pose s f a, by rw [port_pose], rfl⟩

theorem row_pose (s : State) (f : List Byte) (a : Agent) : (pose s f a).row a = session := by
  simp [pose, State.row, State.setRow]

/-- A posed request passes checks 1 to 3. -/
theorem pose_admits (s : State) (k : ReqKind) (a : Agent) (o : Byte) (b : List Byte) (hk : k ≠ .attach)
    (hs : k.supervisorOnly = true → a = 0) : (pose s (ask k a o b) a).Admits 0 k (ask k a o b) a where
  offers := pose_offers s _ a
  agent := by
    show (byteOf a.val).toNat = a.val
    simp [byteOf]; omega
  notAttach := hk
  attached := by rw [row_pose]; rfl
  epoch := by rw [row_pose]; rfl
  port := by rw [row_pose]; rfl
  supervisor := hs

theorem on_admits (r : Record) (k : ReqKind) (a : Agent) (o : Byte) (b : List Byte) (hk : k ≠ .attach)
    (hs : k.supervisorOnly = true → a = 0) : (on r k a o b).Admits 0 k (ask k a o b) a := pose_admits _ k a o b hk hs

theorem on_names (r : Record) (k : ReqKind) (a : Agent) (o : Byte) (b : List Byte) :
    (on r k a o b).Names ⟨5, 0⟩ r := by
  constructor
  · show ((able.setRecord 5 (some r)).slots.get 5).inc = 0
    rw [State.inc_setRecord]; rfl
  · exact State.record_setRecord_self _ _ _

theorem on_holds (r : Record) (k : ReqKind) (a : Agent) (o : Byte) (b : List Byte) (b' : Agent) (c : ClassNo)
    (x : Right) : (on r k a o b).holds b' c x = true := by
  show (State.rightsOf able b' c).mem x.idx = true
  unfold State.rightsOf
  split
  · simp
  · simp [able]

/-! ### Chapter 11's worked example -/

theorem test_crc8_of_keepalive_header : crc8 [0x07, 0x02, 0x04, 0x10, 0x03, 0x00] = 0xDE := by decide
theorem test_keepalive_frame_passes_port : frameFault [0x07, 0x02, 0x04, 0x10, 0x03, 0x00, 0xDE] 0 = none := by decide
theorem test_update_frame_of_channel_4 :
    updateFrame { channel := 4, kind := .value, value := 640 } = [0xC3, 0x04, 0x02, 0x80, 0x08] := by decide
theorem test_parked_update_frame_start :
    (updateFrame { channel := 4, kind := .parked, value := 640 }).take 2 = [0xC3, 0x84] := by decide
theorem test_guard_bytes_missing_is_bad_field : parseNone 0x80 [] = none := by decide

/-- The agent, epoch and port of the example: agent 2, epoch 4, 37 ticks left. -/
def exampleState : State :=
  { (ready.setPort 0 { Port.powerOn with request := .submitted [0x07, 0x02, 0x04, 0x10, 0x03, 0x00, 0xDE] }).setRow 2
      { session with epoch := 4, countdown := some 37 } with engine := .free }

/-- What a port's response buffer holds after a command. -/
def responseAfter (c : Instr) (s : State) : Option (List Byte) :=
  match exec c s with
  | .next t => (t.port 0).response
  | _ => none

theorem test_keepalive_response :
    (responseAfter (.keepalive 0 .whole) exampleState).map (·.take 7)
      = some [0x08, 0x10, 0x00, 0x00, 0x64, 0x00, 0x25] := by decide

/-! ### Single steps on small states -/

/-- The outcome byte of a posed request. -/
def outcomeOf (c : Instr) (s : State) : Option Byte := (responseAfter c s).map (·.getD 2 0)

theorem test_claim_of_open_record_done : outcomeOf (.claim 0 .whole) (on sample .claim 1 0 [5, 0]) = some 0x00 := by
  decide
theorem test_claim_of_held_record_owned :
    outcomeOf (.claim 0 .whole) (on { sample with state := .held 2 } .claim 1 0 [5, 0]) = some 0x34 := by decide
theorem test_stale_handle : outcomeOf (.read 0 .whole) (on sample .read 1 0 [5, 1]) = some 0x23 := by decide
theorem test_stage_at_limit_done : outcomeOf (.stage 0 .whole) (on sample .stage 0 0 [5, 0, 0x00, 0x64]) = some 0x00 := by
  decide
theorem test_stage_past_limit_out_of_range :
    outcomeOf (.stage 0 .whole) (on sample .stage 0 0 [5, 0, 0x00, 0x65]) = some 0x32 := by decide
theorem test_epoch_255_is_followed_by_1 : nextEpoch 255 = 1 := by decide
theorem test_revision_wraps : (sample.grantNow 1).revision = 0 := by decide

/-! ### Witnesses: the machine as a whole -/

/-- A state in which every table stands at its power-on value keeps the laws. -/
theorem laws_of_powerOn {s : State} (h1 : ∀ i, s.record i = none) (h2 : s.keyIndex = [])
    (h3 : s.freeList = allSlots) (h4 : s.agents = State.reset.agents) (h5 : s.linkStalled = false)
    (h6 : s.lostAgents = FinSet.empty 8) (h7 : s.channels = State.reset.channels) (h8 : s.updateQueue = [])
    (h9 : s.link = .idle) (h10 : s.PortLaw) (h11 : s.groups = State.reset.groups) (h12 : s.phase = .ready) :
    s.Laws := by
  have hrow : ∀ a, s.row a = AgentRow.powerOn := by intro a; simp [State.row, h4, State.reset]
  have hch : ∀ c, s.channel c = Channel.powerOn := by intro a; simp [State.channel, h7, State.reset]
  have hg : ∀ c, s.group c = Group.powerOn := by intro a; simp [State.group, h11, State.reset]
  have hsum : ∀ l : List Nat, (∀ x ∈ l, x = 0) → l.sum = 0 := by
    intro l hl
    induction l with
    | nil => rfl
    | cons a l ih => simp [hl a (by simp), ih fun x hx => hl x (by simp [hx])]
  refine ⟨?_, ⟨?_, ?_⟩, ⟨?_, ?_, ?_, ?_, ?_⟩, ?_, ⟨?_, ?_, ?_⟩, ?_, ⟨?_, ?_, ?_⟩, ⟨?_, ?_⟩, h10, ?_, ?_⟩
  · intro i r; simp [h1]
  · intro i r; simp [h1]
  · unfold State.claimsInUse; rw [hsum]; omega
    intro x hx; simp [h1] at hx; exact hx.2
  · simp [h2]
  · simp [h2, h1]
  · simp [h1]
  · intro _; rw [h3]; exact ⟨List.nodup_finRange _, by simp [allSlots, h1]⟩
  · intro _; exact h1
  · intro i r; simp [h1]
  · intro a; rw [hrow]; simp [AgentRow.powerOn]
  · intro _; exact ⟨h5, h6⟩
  · rw [h6]; simp
  · intro a; rw [hrow]; simp [AgentRow.powerOn]
  · intro c i; simp [hch, Channel.powerOn, h1]
  · intro c i r; simp [h1]
  · intro c; simp [hch, Channel.powerOn]
  · simp [h8]
  · simp [h9, Link.Law]
  · intro g; rw [hg]; simp [Group.powerOn, Config.powerOnPeriod]
  · intro h; exact absurd h12 h

/-- The law of the ports, checked port by port. -/
theorem portLaw_of {s : State} (he : s.engine = .free) (h : ∀ p, (s.port p).request ≠ .taken
    ∧ (s.port p).orphan = false ∧ ((s.port p).request ≠ .empty → (s.port p).response = none)) : s.PortLaw := by
  intro p
  exact ⟨(h p).2.2, by simp [h p], by simp [h p, he]⟩

theorem ready_ports (p : PortId) : ready.port p = Port.powerOn := by
  simp [State.port, ready, State.reset]

theorem pose_ready_portLaw (f : List Byte) (a : Agent) : (pose ready f a).PortLaw := by
  refine portLaw_of rfl fun p => ?_
  by_cases h : 0 = p
  · subst h; rw [port_pose]; simp [Port.powerOn]
  · have : (pose ready f a).port p = ready.port p := State.port_setPort_ne ready _ h
    rw [this, ready_ports]; simp [Port.powerOn]

/-- READY, with a SUBMIT of a short frame waiting. -/
def waiting : State := { ready with pending := [.submit 0 [] 0, .frameEnd] }

theorem waiting_laws : waiting.Laws := by
  refine laws_of_powerOn (s := waiting) (fun i => ?_) rfl rfl rfl rfl rfl rfl rfl rfl ?_ rfl rfl
  · simp [State.record, waiting, ready, State.reset, Slot.powerOn]
  · exact portLaw_of rfl fun p => by
      rw [show waiting.port p = ready.port p from rfl, ready_ports]; simp [Port.powerOn]

theorem witness_StepRunsFrontCommand :
    waiting.pending = .submit 0 [] 0 :: [.frameEnd] ∧ State.reset.pending = [] := ⟨rfl, rfl⟩

theorem witness_LawsKeptByEveryStep : waiting.Laws ∧ ∃ t, step waiting = .next t := ⟨waiting_laws, _, rfl⟩

/-- A TAKE_REQUEST waiting: port 0 is SUBMITTED. -/
theorem witness_PortLawKeptByEveryStep :
    let s : State := { pose ready (ask .keepalive 1 0 []) 1 with pending := [.keepalive 0 .take] }
    s.PortLaw ∧ ∃ t, step s = .next t :=
  ⟨pose_ready_portLaw _ 1, _, rfl⟩

/-- A record at its limits, and the sweep step that would visit it. -/
theorem witness_LimitsLawKeptByEveryStep :
    let s : State := { ready.setRecord 5 (some sample) with pending := [.sweepStep] }
    s.LimitsLaw ∧ ∃ t, step s = .next t := by
  refine ⟨fun i r h => ?_, _, rfl⟩
  have h : (ready.setRecord 5 (some sample)).record i = some r := h
  by_cases hi : 5 = i
  · subst hi
    rw [State.record_setRecord_self] at h
    cases h
    refine ⟨by decide, by decide, by decide, fun v hv => by cases hv⟩
  · rw [State.record_setRecord_ne _ _ hi] at h
    simp [State.record, ready, State.reset, Slot.powerOn] at h

theorem waiting_queueLaw : waiting.QueueLaw := waiting_laws.queues
theorem witness_QueueLawKeptByEveryStep : waiting.QueueLaw ∧ ∃ t, step waiting = .next t := ⟨waiting_queueLaw, _, rfl⟩

theorem witness_FreeListAndIndexFillTheStore : waiting.StoreLaw ∧ waiting.phase = .ready := ⟨waiting_laws.store, rfl⟩

theorem witness_RightsChangedBySetRightsAlone :
    ∃ t, exec (.setRights 0 .whole) (pose ready (ask .setRights 0 0 [1, 0, 0x7F]) 0) = .next t ∧ t.holds 1 0 .read = true :=
  ⟨_, rfl, by decide⟩

theorem witness_IncarnationAdvancesAtCreateAlone :
    ∃ t, exec (.create 0 .whole) (pose able (ask .create 0 0 [0, 1, 0, 0, 0, 0, 0, 1, 0, 0, 0, 0, 0]) 0) = .next t
      ∧ (t.slots.get 0).inc = 1 :=
  ⟨_, rfl, by decide⟩

theorem witness_TakeThenFinishIsWhole :
    (∀ k : ReqKind, (pose ready (ask k 0 0 []) 0).Offers 0 (ask k 0 0 []) k.code)
      ∧ (pose ready (frameOf 0x07 0 1 0 []) 0).Offers 0 (frameOf 0x07 0 1 0 []) 0x07 ∧ codeAssigned 0x07 = false :=
  ⟨fun k => pose_offers ready (ask k 0 0 []) 0, pose_offers ready (frameOf 0x07 0 1 0 []) 0, by decide⟩

theorem witness_OrphanedResponseIsDiscarded :
    let f := ask .keepalive 1 0 []
    let s := pose ready f 1
    s.Offers 0 f ReqKind.keepalive.code ∧ s.CanTransact 0 ∧ s.PortLaw ∧ ∃ t, exec (.keepalive 0 .take) s = .next t :=
  ⟨pose_offers ready (ask .keepalive 1 0 []) 1, ⟨by simp [pose], by rw [port_pose]; rfl⟩, pose_ready_portLaw _ 1, _, rfl⟩

/-- A request of a kind that Table 11-1 leaves out. -/
theorem witness_OrphanedResponseIsDiscarded_unknown :
    let f := frameOf 0x07 1 1 0 []
    let s := pose ready f 1
    s.Offers 0 f 0x07 ∧ (∀ k : ReqKind, k.code ≠ 0x07) ∧ s.CanTransact 0 ∧ s.PortLaw
      ∧ ∃ t, exec (.unknownKind 0 .take) s = .next t :=
  ⟨pose_offers ready (frameOf 0x07 1 1 0 []) 1, fun k => by cases k <;> decide,
   ⟨by simp [pose], by rw [port_pose]; rfl⟩, pose_ready_portLaw _ 1, _, rfl⟩

/-! ### Witnesses: admission -/

/-- Kind codes at the edges of the gaps of Table 11-1. -/
theorem witness_UnknownKindRefused : ∀ b ∈ ([0x00, 0x07, 0x0F, 0x15, 0xFF] : List Byte),
    (pose ready (frameOf b 0 1 0 []) 0).Offers 0 (frameOf b 0 1 0 []) b ∧ ∀ k : ReqKind, k.code ≠ b := by
  intro b hb
  refine ⟨pose_offers ready (frameOf b 0 1 0 []) 0, fun k => ?_⟩
  revert b
  cases k <;> decide

theorem witness_SupervisorOnlyKindsRefused : ∀ k ∈ [ReqKind.setRights, .setGroup, .bind, .unbind, .setPark, .revoke,
      .restore, .linkResume, .restart, .queryAgent, .queryGroup, .queryChannel],
    let f := ask k 7 0 []
    let s := pose ready f 7
    s.Offers 0 f k.code ∧ (frameAgent f).toNat = (7 : Agent).val ∧ (7 : Agent) ≠ 0 ∧ (s.row 7).state = .attached
      ∧ (s.row 7).epoch = frameEpoch f ∧ (s.row 7).port = some 0 := by
  intro k _
  refine ⟨pose_offers _ _ _, rfl, by decide, ?_, ?_, ?_⟩ <;> rw [row_pose] <;> rfl

/-- A request offered by agent 1, whose session row is `row`. -/
def poseRow (f : List Byte) (row : AgentRow) : State := (pose ready f 1).setRow 1 row

theorem poseRow_offers (f : List Byte) (row : AgentRow) : (poseRow f row).Offers 0 f (frameKind f) := by
  have hw : (poseRow f row).hasWork (.port 0) = true := by
    show (pose ready f 1).hasWork (.port 0) = true
    simp [State.hasWork, Port.isSubmitted, port_pose]
  refine ⟨?_, ?_, rfl⟩
  · unfold State.grant
    rw [if_pos ⟨rfl, rfl⟩]
    show List.find? (poseRow f row).hasWork [.port 0, .port 1, .internal] = _
    rw [List.find?_cons_of_pos hw]
  · show ((pose ready f 1).port 0).request = _
    rw [port_pose]

/-- The agent field at 8 and at 255, and each failing session test, for a KEEPALIVE of agent 1 on port 0. -/
theorem witness_SessionChecksInOrder :
    (∀ a ∈ ([8, 255] : List Byte), 8 ≤ (frameAgent (frameOf 0x03 a 1 0 [])).toNat)
      ∧ ∀ row ∈ [AgentRow.powerOn, session.lose, { session with epoch := 2 }, { session with port := some 1 }],
          let f := ask .keepalive 1 0 []
          let s := poseRow f row
          s.Offers 0 f ReqKind.keepalive.code ∧ (frameAgent f).toNat = (1 : Agent).val
            ∧ ((s.row 1).state = .detached ∨ (s.row 1).state = .lost
              ∨ ((s.row 1).state = .attached ∧ frameEpoch f ≠ (s.row 1).epoch)
              ∨ ((s.row 1).state = .attached ∧ frameEpoch f = (s.row 1).epoch ∧ (s.row 1).port ≠ some 0)) := by
  refine ⟨by decide, fun row h => ⟨poseRow_offers _ row, rfl, ?_⟩⟩
  have : (poseRow (ask .keepalive 1 0 []) row).row 1 = row := State.row_setRow_self _ _ _
  rw [this]
  revert row
  decide

theorem witness_RefusedRequestWritesNothing :
    (pose ready (ask .read 1 0 [5, 0]) 1).Offers 0 (ask .read 1 0 [5, 0]) ReqKind.read.code :=
  pose_offers ready (ask .read 1 0 [5, 0]) 1

/-- A RETIRE with a guard: of a FREE slot; of a slot whose incarnation differs; without the right; by an agent that is
not the owner; and with a guard one below the revision. -/
theorem witness_HandleChecksInOrder :
    let g : List Byte := [5, 0, 0xFF, 0xFE]
    let f := ask .retire 1 0x80 g
    ReqKind.retire.handleIn (frameOptions f) (frameBody f) = some ⟨5, 0⟩
      ∧ ((pose able f 1).Admits 0 .retire f 1 ∧ (pose able f 1).record 5 = none)
      ∧ ((pose (ready.setRecord 5 (some sample)) f 1).Names ⟨5, 0⟩ sample
          ∧ ¬ (pose (ready.setRecord 5 (some sample)) f 1).RightPasses .retire 1 sample)
      ∧ ((on sample .retire 1 0x80 g).RightPasses .retire 1 sample ∧ ¬ sample.OwnershipPasses .retire 1)
      ∧ (let r := { sample with state := RecState.held 1 }
         (on r .retire 1 0x80 g).Names ⟨5, 0⟩ r ∧ (on r .retire 1 0x80 g).RightPasses .retire 1 r
          ∧ r.OwnershipPasses .retire 1
          ∧ ReqKind.retire.guardIn (frameOptions f) (frameBody f) = some 0xFFFE ∧ (0xFFFE : BitVec 16) ≠ r.revision) := by
  refine ⟨by decide, ⟨pose_admits able .retire 1 0x80 _ (by decide) (by decide), by decide⟩, ⟨⟨by decide, by decide⟩, ?_⟩,
    ⟨fun n _ => on_holds _ _ _ _ _ _ _ n, ?_⟩,
    ⟨on_names _ _ _ _ _, fun n _ => on_holds _ _ _ _ _ _ _ n, .inl rfl, by decide, by decide⟩⟩
  · intro h
    have : State.holds ready 1 2 .retire = true := h .retire rfl
    revert this; decide
  · rintro (h | h)
    · exact absurd h (by decide)
    · exact absurd h (by decide)

theorem witness_SupervisorHoldsEveryRight :
    let s : State := { able.setRecord 255 (some { sample with key := 1 }) with keyIndex := [(1, 255)] }
    ((1, 255) ∈ s.keyIndex ∧ (0 : Key).toNat < (1 : Key).toNat ∧ s.record 255 = some { sample with key := 1 })
      ∧ (let f := ask .setRights 0 0 [0, 7, 0x7F]
         (pose ready f 0).Admits 0 .setRights f 0 ∧ frameBody f = [0, 7, 0x7F]) :=
  ⟨⟨List.mem_singleton.2 rfl, by decide, State.record_setRecord_self _ _ _⟩,
   pose_admits ready .setRights 0 0 _ (by decide) (fun _ => rfl), rfl⟩

/-- The bounds of the field readers: periods 10, 60000 and 1; key 1; limits that are equal. -/
theorem witness_FieldsReadFromTheBody :
    (10 ≤ (0x00#8 ++ 0x0A#8 : BitVec 16).toNat ∧ (0xEA#8 ++ 0x60#8 : BitVec 16).toNat ≤ 60000)
      ∧ (0x00#8 ++ 0x01#8 : BitVec 16) ≠ 0 ∧ 1 ≤ (0x00#8 ++ 0x01#8 : BitVec 16).toNat
      ∧ (0x80#8 ++ 0x00#8 : BitVec 16).toInt ≤ (0x80#8 ++ 0x00#8 : BitVec 16).toInt := by decide

/-- Requests that check 4 refuses: a guard, and an undefined option bit, on kinds without one; a guard's bytes missing; a
byte too many; a group, a channel and a mask one past their ranges; a period of 0 and of 60001 ticks; the limits of a
TUNE by halves; and an ATTACH of agent 1 with period 0 and period 9. -/
theorem witness_FieldsReadFromTheBody_refused :
    (∀ x ∈ [(ReqKind.keepalive, (0x80 : Byte), ([] : List Byte)), (.claim, 0x01, [5, 0]), (.retire, 0x80, [5, 0]),
            (.stage, 0, [5, 0, 0, 0, 0]), (.queryGroup, 0, [8]), (.queryChannel, 0, [32]), (.tune, 0, [5, 0, 0x20]),
            (.setGroup, 0, [7, 2, 3, 0, 0, 0xFF]), (.setGroup, 0, [7, 2, 3, 0xEA, 0x61, 0xFF]),
            (.tune, 0, [5, 0, 0x01, 0, 0])],
        let f := ask x.1 0 x.2.1 x.2.2
        (pose ready f 0).Admits 0 x.1 f 0 ∧ ¬ x.1.FieldsFit 0 (frameOptions f) (frameBody f))
      ∧ ∀ body ∈ ([[0, 0], [0, 9]] : List (List Byte)),
          let f := ask .attach 1 0 body
          (pose ready f 1).Offers 0 f ReqKind.attach.code ∧ (frameAgent f).toNat = (1 : Agent).val
            ∧ ¬ ReqKind.attach.FieldsFit 1 (frameOptions f) (frameBody f) := by
  refine ⟨fun x h => ⟨pose_admits ready x.1 0 x.2.1 x.2.2 ?_ fun _ => rfl, ?_⟩,
    fun body h => ⟨pose_offers ready _ 1, rfl, ?_⟩⟩
  · revert x; decide
  · rw [show frameOptions (ask x.1 0 x.2.1 x.2.2) = x.2.1 from rfl, show frameBody (ask x.1 0 x.2.1 x.2.2) = x.2.2 from
      frameBody_frameOf _ _ _ _ _]
    simp only [List.mem_cons, List.not_mem_nil, or_false] at h
    unfold ReqKind.FieldsFit
    rcases h with rfl | rfl | rfl | rfl | rfl | rfl | rfl | rfl | rfl | rfl <;>
      simp only [ReqKind.ValuesFit, ReqKind.fieldBytes, ReqKind.optionsAccepted] <;> decide
  · rw [show frameOptions (ask .attach 1 0 body) = 0 from rfl, show frameBody (ask .attach 1 0 body) = body from
      frameBody_frameOf _ _ _ _ _]
    simp only [List.mem_cons, List.not_mem_nil, or_false] at h
    unfold ReqKind.FieldsFit
    rcases h with rfl | rfl <;> simp only [ReqKind.ValuesFit] <;> decide

/-! ### Witnesses: port transactions, start-up -/

/-- READY with port 0 as given. -/
def withPort (q : Port) : State := ready.setPort 0 q

theorem withPort_port (q : Port) : (withPort q).port 0 = q := State.port_setPort_self _ _ _

theorem withPort_transacts {q : Port} (h : q.txn = .idle) : (withPort q).CanTransact 0 :=
  ⟨by simp [withPort, ready], by rw [withPort_port]; exact h⟩

/-- A port between transactions, or in one of kind `t`, can end one. -/
theorem withPort_canEnd {q : Port} {t : Txn} (h : q.txn = .idle ∨ q.txn = t) : (withPort q).CanEnd 0 t :=
  ⟨by simp [withPort, ready], by rw [withPort_port]; exact h⟩

/-- A transaction while nRST is low; one whose first byte was read earlier, of each kind that acts by the port's condition
at the deassertion. -/
theorem witness_SubmitTestedInOrder_settled :
    State.reset.phase = .inReset
      ∧ ∀ t ∈ [Txn.submit, .cancel, .resetPort], (withPort { Port.powerOn with txn := t }).CanEnd 0 t :=
  ⟨rfl, fun _ _ => withPort_canEnd (.inr rfl)⟩

/-- Before READY; three bits beyond whole bytes; a frame one byte short, one whose length byte is wrong, one with a
wrong CRC; an occupied and an empty port. -/
theorem witness_SubmitTestedInOrder :
    let whole : List Byte := [0x07, 0x02, 0x04, 0x10, 0x03, 0x00, 0xDE]
    (({ State.reset with phase := .initialising } : State).CanEnd 0 .submit
        ∧ ({ State.reset with phase := .initialising } : State).phase ≠ .ready)
      ∧ (ready.CanEnd 0 .submit ∧ ready.phase = .ready ∧ (7 : Fin 8) ≠ 0)
      ∧ ((whole.take 6).length < 7 ∧ (([0x08, 0, 0, 0, 0, 0, 0] : List Byte).getD 0 0).toNat ≠ 7)
      ∧ (7 ≤ whole.length ∧ (whole.getD 0 0).toNat = whole.length ∧ crc8 whole.dropLast = whole.getLast?.getD 0)
      ∧ crc8 ([0x07, 0x02, 0x04, 0x10, 0x03, 0x00, 0xDF] : List Byte).dropLast ≠ 0xDF
      ∧ ((withPort { Port.powerOn with response := some [4, 0, 0, 0] }).port 0).cond ≠ .empty
      ∧ (ready.port 0).cond = .empty := by
  refine ⟨⟨⟨by decide, by decide⟩, by decide⟩, ⟨⟨by decide, by decide⟩, rfl, by decide⟩, by decide, by decide, by decide, ?_,
    by rw [ready_ports]; rfl⟩
  rw [withPort_port]; decide

/-- A response of four bytes with 32 bits and with 31 bits clocked; no response; nRST low. -/
theorem witness_CollectGivesTheResponse :
    let q : Port := { Port.powerOn with response := some [4, 9, 0, 0] }
    ((withPort q).CanTransact 0 ∧ ((withPort q).port 0).request = .empty
        ∧ ((withPort q).port 0).response = some [4, 9, 0, 0])
      ∧ [4, 9, 0, (0 : Byte)].length ≤ 32 / 8 ∧ 31 / 8 < [4, 9, 0, (0 : Byte)].length
      ∧ (ready.CanTransact 0 ∧ (ready.port 0).response = none) ∧ State.reset.phase = .inReset := by
  refine ⟨⟨withPort_transacts rfl, ?_, ?_⟩, by decide, by decide, ⟨⟨by decide, by decide⟩, by rw [ready_ports]; rfl⟩, rfl⟩
  · rw [withPort_port]; rfl
  · rw [withPort_port]

theorem ready_portLaw : ready.PortLaw := portLaw_of rfl fun p => by rw [ready_ports]; simp [Port.powerOn]

theorem witness_StatusReportsThePort : ready.CanTransact 0 ∧ ready.PortLaw ∧ State.reset.phase = .inReset :=
  ⟨⟨by decide, by decide⟩, ready_portLaw, rfl⟩

/-- The conditions of a port that CANCEL and RESET_PORT tell apart; a taken request with the transaction between, and
with its first byte read before the take. -/
theorem witness_CancelAndResetPortByCondition :
    (let s := pose ready (ask .read 1 0 []) 1
     (∀ t, s.CanEnd 0 t) ∧ s.PortLaw ∧ (s.port 0).request = .submitted (ask .read 1 0 []))
      ∧ (∀ t ∈ [Txn.idle, .cancel, .resetPort],
         let s : State := { withPort { Port.powerOn with request := .taken, txn := t } with engine := .busy 0 0 [] }
         s.CanEnd 0 t ∧ s.PortLaw ∧ (s.port 0).request = .taken)
      ∧ (let s := withPort { Port.powerOn with response := some [] }
         (∀ t, s.CanEnd 0 t) ∧ s.PortLaw ∧ (s.port 0).request = .empty ∧ (s.port 0).response ≠ none)
      ∧ ((∀ t, ready.CanEnd 0 t) ∧ ready.PortLaw ∧ (ready.port 0).request = .empty ∧ (ready.port 0).response = none) := by
  have other : ∀ q, (withPort q).port 1 = Port.powerOn := by
    intro q
    exact (State.port_setPort_ne ready q (show (0 : PortId) ≠ 1 by decide)).trans (ready_ports 1)
  have two : ∀ P : PortId → Prop, P 0 → P 1 → ∀ p, P p := by
    intro P h0 h1 p
    fin_cases p
    · exact h0
    · exact h1
  refine ⟨⟨fun _ => ⟨by simp [pose], .inl (by rw [port_pose]; rfl)⟩, pose_ready_portLaw _ _, by rw [port_pose]⟩,
    fun t _ => ⟨withPort_canEnd (.inr rfl), two _ ?_ ?_, ?_⟩,
    ⟨fun _ => withPort_canEnd (.inl rfl), portLaw_of rfl (two _ ?_ ?_), ?_, ?_⟩,
    ⟨fun _ => ⟨by decide, .inl (by decide)⟩, ready_portLaw, by rw [ready_ports]; rfl, by rw [ready_ports]; rfl⟩⟩
  · show (_ → ((withPort _).port 0).response = none) ∧ (((withPort _).port 0).orphan = true → _) ∧ _
    simp only [State.port, withPort, State.setPort_ports, Tab.get_set_self]
    simp [Port.powerOn]
  · show (((withPort _).port 1).request ≠ _ → _) ∧ (((withPort _).port 1).orphan = true → _)
      ∧ (((withPort _).port 1).request = _ ↔ _)
    rw [other]; simp [Port.powerOn]
  · exact congrArg Port.request (withPort_port _)
  · rw [withPort_port]; simp [Port.powerOn]
  · rw [other]; simp [Port.powerOn]
  · rw [withPort_port]; rfl
  · rw [withPort_port]; simp

/-- A port between transactions; first bytes one below and one above the five kinds; a STATUS, an unknown kind and a
COLLECT that are settled, the last with a response and without; an assertion that the port ignores; nRST low; and a take of
a request of an unassigned kind. -/
theorem witness_FirstByteThenDeassertion :
    (ready.CanTransact 0 ∧ (ready.port 0).response = none
        ∧ ∃ t, exec (.endOfFirstByte 0 0xA2) ready = .next t)
      ∧ ((0xA0 : Byte) ∉ ([0xA1, 0xA2, 0xA3, 0xA4, 0xA5] : List Byte)
        ∧ (0xA6 : Byte) ∉ ([0xA1, 0xA2, 0xA3, 0xA4, 0xA5] : List Byte))
      ∧ (∀ txn ∈ [Txn.status 0x80 0x01, .collect (some [4, 9, 0, 0]), .collect none, .unknown, .ignored],
          ((withPort { Port.powerOn with txn := txn }).port 0).txn = txn
            ∧ (withPort { Port.powerOn with txn := txn }).phase ≠ .inReset)
      ∧ State.reset.phase = .inReset
      ∧ ∃ t, exec (.unknownKind 0 .take) (pose ready (frameOf 0x07 1 1 0 []) 1) = .next t :=
  ⟨⟨⟨by decide, by decide⟩, by rw [ready_ports]; rfl, _, rfl⟩, by decide,
   fun txn _ => ⟨by rw [withPort_port], by simp [withPort, ready]⟩, rfl, _, rfl⟩

theorem witness_StartUpBringsPowerOnValues :
    State.reset.phase = .inReset ∧ ({ State.reset with phase := .initialising } : State).phase = .initialising :=
  ⟨rfl, rfl⟩

/-! ### Witnesses: time, strobes and internal work -/

/-- A running timer of each kind one tick before its expiry, and agents and groups whose timers do otherwise. -/
def timed (link : Link) : State :=
  { ((ready.setRow 1 { session with countdown := some 1 }).setRow 2 { session with countdown := some 2 }).setGroup 3
      { Group.powerOn with trigger := .period, period := 1, counter := some 1 } with link := link }

def frame4 : Update := { channel := 4, kind := .value, value := 640 }

theorem witness_TickCountsAndExpires :
    State.reset.phase ≠ .ready
      ∧ (∀ link ∈ [Link.idle, .awaitAck frame4 3 1, .awaitAck frame4 4 1, .awaitAck frame4 1 2],
          (timed link).phase = .ready ∧ (timed link).ExpiriesTaken ∧ (timed link).link = link)
      ∧ ((timed .idle).row 0).countdown = none ∧ ((timed .idle).row 1).countdown = some 1
      ∧ ((timed .idle).row 2).countdown = some (0 + 2) ∧ ((timed .idle).group 0).counter = none
      ∧ ((timed .idle).group 3).trigger = .period ∧ ((timed .idle).group 3).counter = some 1 := by
  refine ⟨by decide, fun link h => ⟨rfl, ⟨fun a => ?_, fun g => ?_, ?_⟩, rfl⟩, by decide, by decide, by decide, by decide,
    by decide, by decide⟩
  · show ((timed .idle).row a).countdown ≠ some 0
    revert a; decide
  · show ((timed .idle).group g).trigger = .period → ((timed .idle).group g).counter ≠ some 0
    revert g; decide
  · intro f n e
    have e : link = .awaitAck f n 0 := e
    subst e
    simp at h

theorem witness_ExpiriesApartFromTheTick :
    ((ready.setRow 1 { session with countdown := some 0 }).row 1).countdown = some 0
      ∧ (let s := ready.setGroup 3 { Group.powerOn with trigger := .period, period := 1, counter := some 0 }
         (s.group 3).trigger = .period ∧ (s.group 3).counter = some 0)
      ∧ (timed .idle).phase = .ready ∧ (timed .idle).ExpiriesTaken :=
  ⟨by decide, by decide, rfl, (witness_TickCountsAndExpires.2.1 .idle (by simp)).2.1⟩

theorem witness_StrobeEdgesRaiseApplyEvents :
    State.reset.phase ≠ .ready ∧ ready.phase = .ready ∧ ready.applyLevels.mem 3 = false
      ∧ ({ ready with applyLevels := FinSet.full 4 } : State).applyLevels.mem 3 = true := by decide

/-- READY, with port 1 named by the pointer and agents 2 and 7 expired. -/
def expiredTwo : State :=
  { (ready.setRow 2 { session with countdown := none, expired := true }).setRow 7
      { session with countdown := none, expired := true } with pointer := .port 1 }

/-- READY, with group 3 pending and, as given, a sweep. -/
def sweeping (w : Option Sweep) : State :=
  { ready.setGroup 3 { Group.powerOn with pending := true } with pointer := .port 1, sweep := w }

theorem witness_InternalWorkChosenInOrder :
    (expiredTwo.grant = some .internal ∧ (expiredTwo.row 2).expired = true
        ∧ ∀ b : Agent, b < 2 → (expiredTwo.row b).expired = false)
      ∧ (∀ w ∈ [none, some { group := 5, cursor := some (255 : SlotNo) }],
          (sweeping w).grant = some .internal ∧ (∀ a, ((sweeping w).row a).expired = false) ∧ (sweeping w).sweep = w
            ∧ ((sweeping w).group 3).pending = true ∧ ∀ b : GroupNo, b < 3 → ((sweeping w).group b).pending = false)
      ∧ State.reset.grant ≠ some .internal := by decide

/-- A member at slot 5 with a staged value, with a pending safe value, and without work; cursors below it; and a cursor
past it. -/
theorem witness_SweepStepVisitsNextMember :
    ∀ r ∈ [{ sample with staged := some 7 }, { sample with safePending := true }, sample],
      ∀ c ∈ [none, some (4 : SlotNo), some 5],
        let s : State := { ready.setRecord 5 (some r) with pointer := .port 1, sweep := some { group := 3, cursor := c } }
        s.grant = some .internal ∧ (∀ a, (s.row a).expired = false) ∧ s.sweep = some { group := 3, cursor := c }
          ∧ s.record 5 = some r ∧ r.group = 3
          ∧ (∀ (j : SlotNo) (q : Record), j ≠ 5 → s.record j = some q → q.group ≠ 3)
          ∧ (c ≠ some 5 → ∀ j, c = some j → j < 5) := by
  intro r hr c hc
  refine ⟨?_, ?_, rfl, State.record_setRecord_self _ _ _, ?_, ?_, ?_⟩
  · show ({ sweeping (some { group := 3, cursor := none }) with groups := ready.groups } : State).grant = _
    decide
  · show ∀ a, (ready.row a).expired = false
    decide
  · revert r; decide
  · intro j q hj h
    have h : (ready.setRecord 5 (some r)).record j = some q := h
    rw [State.record_setRecord_ne _ _ (Ne.symm hj)] at h
    simp [State.record, ready, State.reset, Slot.powerOn] at h
  · revert c; decide

/-- The lapse of agent 2, with agent 0 ATTACHED and without, and the lapse of agent 0. -/
theorem witness_LapseItemTakesSessionDown :
    ∀ s ∈ [expiredTwo, expiredTwo.setRow 0 session],
      (s.grant = some .internal ∧ (s.row 2).expired = true ∧ (∀ b : Agent, b < 2 → (s.row b).expired = false))
        ∧ (let t := s.setRow 0 { session with countdown := none, expired := true }
           t.grant = some .internal ∧ (t.row 0).expired = true ∧ ∀ b : Agent, b < 0 → (t.row b).expired = false) := by
  decide

/-- The three policies, an empty and a full queue, a bound and an unbound record. -/
theorem witness_LapseStepAppliesPolicy :
    let kept : Record := { sample with policy := .hold, state := .held 7 }
    let safe : Record := { kept with policy := .safeNow, queue := [1, 2, 3, 4], binding := some 31 }
    let later : Record := { kept with policy := .safeAtApply, binding := some 31, live := 0xFF9C }
    (∀ r ∈ [kept, safe, later], (ready.setRecord 5 (some r)).record 5 = some r)
      ∧ kept.queue = [] ∧ kept.binding = none ∧ safe.queue = 1 :: [2, 3, 4] ∧ safe.binding = some 31
      ∧ safe.live ≠ safe.safe ∧ later.live = later.safe ∧ (ready.group later.group).trigger = .onStage :=
  ⟨fun _ _ => State.record_setRecord_self _ _ _, by decide⟩

/-! ### Witnesses: lists and the update link -/

/-- A row with `n` entries, for the slots from 0 on. -/
def listed (n : Nat) : AgentRow :=
  { session with attention := (List.range n).map fun i =>
      { handle := { slot := Fin.ofNat 256 i, inc := 0 }, key := 1, reasons := FinSet.full 6 } }

theorem witness_ConditionEntersTheList :
    AgentRow.powerOn.state ≠ .attached
      ∧ ((listed 1).state = .attached ∧ (listed 1).attention = [] ++ (listed 1).attention.head (by decide) :: []
          ∧ ((listed 1).attention.head (by decide)).handle = ⟨0, 0⟩)
      ∧ (∀ n ∈ [0, 23, 24], (listed n).state = .attached ∧ (listed n).attention.length = n
          ∧ ∀ d ∈ (listed n).attention, d.handle ≠ ⟨255, 0⟩) := by decide

theorem witness_NoticeEntersTheQueue :
    let s : State := { ready with updateQueue := [{ frame4 with channel := 3 }, frame4] }
    (s.updateQueue = [{ frame4 with channel := 3 }] ++ frame4 :: [] ∧ frame4.channel = 4
        ∧ ∀ d ∈ [{ frame4 with channel := 3 }], d.channel ≠ 4)
      ∧ (∀ d ∈ s.updateQueue, d.channel ≠ 5) ∧ (s.updateQueue.map (·.channel)).Nodup := by decide

theorem witness_AttemptSendsFiveBytes :
    ({ ready with link := .sending frame4 4 } : State).link = .sending frame4 4 := rfl

theorem witness_FrameTakenAcknowledgedRetried :
    (let s : State := { ready with updateQueue := [frame4] }
     s.phase = .ready ∧ s.link = .idle ∧ s.updateQueue = frame4 :: [])
      ∧ ∀ n ∈ [3, 4], ({ ready with link := .awaitAck frame4 n 0 } : State).link = .awaitAck frame4 n 0
          ∧ (n < 4 ∨ 4 ≤ n) := by
  refine ⟨⟨rfl, rfl, rfl⟩, fun n _ => ⟨rfl, by omega⟩⟩

theorem witness_LateAcknowledgeIgnored :
    (∀ f n m, ready.link ≠ .awaitAck f n m)
      ∧ ∀ n ∈ [3, 4], ({ ready with link := .awaitAck frame4 n 0 } : State).link = .awaitAck frame4 n 0 :=
  ⟨fun _ _ _ h => (by cases h), fun _ _ => rfl⟩

theorem witness_CrcOfAFrame : frameFault [0x07, 0x02, 0x04, 0x10, 0x03, 0x00, 0xDE] 0 = none := by decide

/-! ### Witnesses: sessions and rights -/

/-- Periods 10 and 60000 for agent 1, whose row is DETACHED, LOST or ATTACHED with epoch 255. -/
theorem witness_AttachBeginsSession :
    ∀ row ∈ [AgentRow.powerOn, session.lose, { session with epoch := 255 }],
      ∀ body ∈ ([[0x00, 0x0A], [0xEA, 0x60]] : List (List Byte)),
        let f := ask .attach 1 0 body
        (poseRow f row).Offers 0 f ReqKind.attach.code ∧ (frameAgent f).toNat = (1 : Agent).val
          ∧ (parseAttach 1 (frameOptions f) (frameBody f)).isSome = true ∧ (poseRow f row).row 1 = row := by
  intro row _ body h
  refine ⟨poseRow_offers _ row, rfl, ?_, State.row_setRow_self _ _ _⟩
  rw [show frameOptions (ask .attach 1 0 body) = 0 from rfl, show frameBody (ask .attach 1 0 body) = body from
    frameBody_frameOf _ _ _ _ _]
  revert body; decide

theorem witness_DetachReleasesEverything : ∀ a ∈ [(0 : Agent), 7],
    let f := ask .detach a 0 []
    (on { sample with state := .held a, queue := [1, 2] } .detach a 0 []).Admits 0 .detach f a ∧ frameOptions f = 0
      ∧ frameBody f = [] :=
  fun a _ => ⟨on_admits _ .detach a 0 [] (by decide) (fun h => absurd h (by decide)), rfl, rfl⟩

theorem witness_KeepaliveRenewsAndReports :
    let f := ask .keepalive 1 0 []
    (pose ready f 1).Admits 0 .keepalive f 1 ∧ frameOptions f = 0 ∧ frameBody f = []
      ∧ ((pose ready f 1).row 1).period = some 100 :=
  ⟨pose_admits _ .keepalive 1 0 [] (by decide) (by decide), rfl, rfl, by rw [row_pose]; rfl⟩

/-- The last agent, group and channel; for the channel one that is bound and one that is not, one with a waiting entry
and one without, and a transmitter in each of its states. -/
theorem witness_QueriesReport :
    (let f := ask .queryAgent 0 0 [7]
     (pose ready f 0).Admits 0 .queryAgent f 0 ∧ parseAgent (frameOptions f) (frameBody f) = some 7)
      ∧ (let f := ask .queryGroup 0 0 [7]
         (pose ready f 0).Admits 0 .queryGroup f 0 ∧ parseGroup (frameOptions f) (frameBody f) = some 7)
      ∧ (let f := ask .queryChannel 0 0 [31]
         let last : Update := { frame4 with channel := 31 }
         (∀ queue ∈ [[], [frame4, last]], ∀ link ∈ [Link.idle, .sending last 1, .awaitAck frame4 4 0, .stalled last],
            (pose { ready with updateQueue := queue, link := link } f 0).Admits 0 .queryChannel f 0)
          ∧ parseChannel (frameOptions f) (frameBody f) = some 31 ∧ (ready.channel 31).binding = none
          ∧ (∀ d ∈ [frame4], d.channel ≠ 31) ∧ last.channel = 31
          ∧ (let s := (able.setRecord 255 (some { sample with binding := some 31 })).setChannel 31
                { Channel.powerOn with binding := some 255 }
             (pose s f 0).Admits 0 .queryChannel f 0 ∧ (s.channel 31).binding = some 255
              ∧ s.record 255 = some { sample with binding := some 31 })) :=
  ⟨⟨pose_admits _ .queryAgent 0 0 _ (by decide) (fun _ => rfl), by decide⟩,
   ⟨pose_admits _ .queryGroup 0 0 _ (by decide) (fun _ => rfl), by decide⟩,
   fun _ _ _ _ => pose_admits _ .queryChannel 0 0 _ (by decide) (fun _ => rfl), by decide, by decide, by decide, rfl,
   pose_admits _ .queryChannel 0 0 _ (by decide) (fun _ => rfl),
   congrArg Channel.binding (State.channel_setChannel_self _ 31 _), State.record_setRecord_self _ _ _⟩

theorem witness_RestartClearsTheDirectory :
    let f := ask .restart 0 0 []
    let s := pose { able.setRecord 5 (some sample) with updateQueue := [frame4] } f 0
    s.Admits 0 .restart f 0 ∧ frameOptions f = 0 ∧ frameBody f = [] ∧ (s.updateQueue.map (·.channel)).Nodup :=
  ⟨pose_admits _ .restart 0 0 [] (by decide) (fun _ => rfl), rfl, rfl, by decide⟩

theorem witness_SetRightsReplacesOneSet :
    let f := ask .setRights 0 0 [7, 7, 0x7F]
    (pose ready f 0).Admits 0 .setRights f 0
      ∧ parseSetRights (frameOptions f) (frameBody f) = some (7, 7, FinSet.ofByte 7 0x7F) :=
  ⟨pose_admits _ .setRights 0 0 _ (by decide) (fun _ => rfl), by decide⟩

/-! ### Witnesses: the directory -/

/-- CREATE of key 1 with limits -100 to 100, live at one limit and safe at the other. -/
def createBody : List Byte := [0, 1, 2, 3, 0xFF, 0x9C, 0, 0x64, 0, 0x64, 0xFF, 0x9C, 2]
def created : CreateFields :=
  { key := 1, cls := 2, group := 3, min := 0xFF9C, max := 100, live := 100, safe := 0xFF9C, policy := .safeAtApply,
    unowned := false }

theorem created_parsed : parseCreate 0 createBody = some created := by decide

theorem witness_CreateFillsTheHeadSlot :
    let f := ask .create 1 0 createBody
    let s := pose able f 1
    s.Admits 0 .create f 1 ∧ parseCreate (frameOptions f) (frameBody f) = some created
      ∧ s.holds 1 created.cls .create = true ∧ (∀ e ∈ s.keyIndex, e.1 ≠ created.key)
      ∧ s.freeList = 0 :: (List.finRange 256).tail ∧ created.min.toInt ≤ created.live.toInt
      ∧ created.live.toInt ≤ created.max.toInt ∧ created.min.toInt ≤ created.safe.toInt
      ∧ created.safe.toInt ≤ created.max.toInt :=
  ⟨pose_admits able .create 1 0 _ (by decide) (by decide), created_parsed,
   on_holds sample .create 1 0 createBody 1 2 .create, fun _ h => (by cases h), List.finRange_succ, by decide⟩

/-- The key in use; no slot free; a live value one past the greatest, a safe value one below the least. -/
theorem witness_CreateRefusedInOrder :
    let f := ask .create 1 0 createBody
    (∀ s ∈ [able, { able with keyIndex := [(1, 255)] }, { able with freeList := [] }],
        (pose s f 1).Admits 0 .create f 1 ∧ (pose s f 1).holds 1 created.cls .create = true)
      ∧ parseCreate (frameOptions f) (frameBody f) = some created
      ∧ (∃ e ∈ (pose { able with keyIndex := [(1, 255)] } f 1).keyIndex, e.1 = created.key)
      ∧ (pose { able with freeList := [] } f 1).freeList = []
      ∧ (parseCreate 0 [0, 1, 2, 3, 0xFF, 0x9C, 0, 0x64, 0, 0x65, 0xFF, 0x9C, 2]).map
          (fun q => decide (q.max.toInt < q.live.toInt)) = some true
      ∧ (parseCreate 0 [0, 1, 2, 3, 0xFF, 0x9C, 0, 0x64, 0, 0x64, 0xFF, 0x9B, 2]).map
          (fun q => decide (q.safe.toInt < q.min.toInt)) = some true := by
  refine ⟨fun s h => ⟨pose_admits s .create 1 0 _ (by decide) (by decide), ?_⟩, created_parsed,
    ⟨(1, 255), List.mem_singleton.2 rfl, rfl⟩, rfl, by decide, by decide⟩
  show s.holds 1 2 .create = true
  simp only [List.mem_cons, List.not_mem_nil, or_false] at h
  rcases h with rfl | rfl | rfl <;> exact on_holds sample .create 1 0 createBody 1 2 .create

/-- By the owner of an unbound and of a bound record, and by agent 0 of a bound one; with the guard equal to the
revision, and without. -/
theorem witness_RetireDismantlesTheRecord :
    ∀ r ∈ [{ sample with state := .held 1, queue := [2], watchers := FinSet.full 8 },
           { sample with state := .held 1, binding := some 31 }],
      (let f := ask .retire 1 0x80 [5, 0, 0xFF, 0xFF]
       (on r .retire 1 0x80 [5, 0, 0xFF, 0xFF]).Admits 0 .retire f 1
        ∧ parseHandle optGuard (frameOptions f) (frameBody f) = some (⟨5, 0⟩, some 0xFFFF)
        ∧ (on r .retire 1 0x80 [5, 0, 0xFF, 0xFF]).Names ⟨5, 0⟩ r ∧ r.state = .held 1
        ∧ GuardPasses (some 0xFFFF) r)
      ∧ (let f := ask .retire 0 0 [5, 0]
         (on r .retire 0 0 [5, 0]).Admits 0 .retire f 0
          ∧ parseHandle optGuard (frameOptions f) (frameBody f) = some (⟨5, 0⟩, none)
          ∧ (on r .retire 0 0 [5, 0]).Names ⟨5, 0⟩ r ∧ (on r .retire 0 0 [5, 0]).holds 0 r.cls .retire = true
          ∧ GuardPasses none r) := by
  intro r h
  refine ⟨⟨on_admits r .retire 1 0x80 _ (by decide) (by decide), by decide, on_names _ _ _ _ _, ?_, .inr ?_⟩,
    ⟨on_admits r .retire 0 0 _ (by decide) (by decide), by decide, on_names _ _ _ _ _, on_holds _ _ _ _ _ _ _ _, .inl rfl⟩⟩
  · revert r; decide
  · revert r; decide

/-- READY with the record `sample` in slot 5, indexed, and its slot off the free-slot list; agent 1 has the rights of
`base`. -/
def stored (base : State) : State :=
  { base.setRecord 5 (some sample) with keyIndex := [(0x0410, 5)], freeList := allSlots.filter (· != 5) }

theorem stored_storeLaw {base : State} (hb : ∀ i, base.record i = none) (f : List Byte) (a : Agent) :
    (pose (stored base) f a).StoreLaw := by
  have hrec : ∀ i, (pose (stored base) f a).record i = if i = 5 then some sample else none := by
    intro i
    show (base.setRecord 5 (some sample)).record i = _
    by_cases h : (5 : SlotNo) = i
    · subst h; simp
    · rw [State.record_setRecord_ne _ _ h, hb, if_neg (Ne.symm h)]
  refine ⟨List.pairwise_singleton _ _, fun k i => ?_, fun i r h => ?_, fun _ => ⟨(show (allSlots.filter (· != 5)).Nodup from (List.nodup_finRange 256).filter _), fun i => ?_⟩,
    fun h => absurd rfl h⟩
  · rw [hrec]
    show (k, i) ∈ [(0x0410, 5)] ↔ _
    rw [List.mem_singleton, Prod.mk.injEq]
    constructor
    · rintro ⟨rfl, rfl⟩; exact ⟨sample, by simp, rfl⟩
    · rintro ⟨r, h, rfl⟩
      split at h
      · next hi => cases h; exact ⟨rfl, hi⟩
      · cases h
  · rw [hrec] at h
    split at h
    · cases h; decide
    · cases h
  · rw [hrec]
    show i ∈ allSlots.filter (· != 5) ↔ _
    simp [allSlots]

theorem base_records (i : SlotNo) : ready.record i = none ∧ able.record i = none := by
  simp [State.record, able, ready, State.reset, Slot.powerOn]

theorem witness_ReadsReportTheDirectory :
    (let f := ask .read 1 0 [5, 0]
     (on sample .read 1 0 [5, 0]).Admits 0 .read f 1
      ∧ parseHandle 0 (frameOptions f) (frameBody f) = some (⟨5, 0⟩, none)
      ∧ (on sample .read 1 0 [5, 0]).Names ⟨5, 0⟩ sample ∧ (on sample .read 1 0 [5, 0]).holds 1 2 .read = true)
      ∧ (let f := ask .lookup 1 0 [0x04, 0x10]
         (pose (stored able) f 1).Admits 0 .lookup f 1 ∧ parseKey (frameOptions f) (frameBody f) = some 0x0410
          ∧ (pose (stored able) f 1).StoreLaw ∧ (pose (stored able) f 1).record 5 = some sample
          ∧ (pose (stored able) f 1).holds 1 2 .read = true
          ∧ (pose (stored ready) f 1).StoreLaw ∧ (pose (stored ready) f 1).holds 1 2 .read = false)
      ∧ (let f := ask .lookup 1 0 [0xFF, 0xFF]
         (pose waiting f 1).Admits 0 .lookup f 1 ∧ parseKey (frameOptions f) (frameBody f) = some 0xFFFF
          ∧ (pose waiting f 1).StoreLaw ∧ (∀ i r, (pose waiting f 1).record i = some r → r.key ≠ 0xFFFF))
      ∧ (let f := ask .enumerate 1 0 [0x04, 0x0F]
         (pose (stored able) f 1).Admits 0 .enumerate f 1
          ∧ parseAfterKey (frameOptions f) (frameBody f) = some 0x040F ∧ (pose (stored able) f 1).StoreLaw) := by
  refine ⟨⟨on_admits _ .read 1 0 _ (by decide) (by decide), by decide, on_names _ _ _ _ _, on_holds _ _ _ _ _ _ _ _⟩,
    ⟨pose_admits _ .lookup 1 0 _ (by decide) (by decide), by decide, stored_storeLaw (fun i => (base_records i).2) _ _,
      State.record_setRecord_self _ _ _, on_holds sample .read 1 0 [] 1 2 .read,
      stored_storeLaw (fun i => (base_records i).1) _ _, ?_⟩,
    ⟨pose_admits _ .lookup 1 0 _ (by decide) (by decide), by decide, waiting_laws.store, fun i r h => ?_⟩,
    ⟨pose_admits _ .enumerate 1 0 _ (by decide) (by decide), by decide, stored_storeLaw (fun i => (base_records i).2) _ _⟩⟩
  · show ready.holds 1 2 .read = false
    decide
  · have h : ready.record i = some r := h
    rw [(base_records i).1] at h; cases h

/-! ### Witnesses: ownership -/

/-- A CLAIM by agent 1 with and without the wait option, of a record OPEN, LAPSED, HELD by the requester, and HELD by
another with the requester queued, with the queue full, and with room for one more. -/
theorem witness_ClaimDecidedByTheTable :
    ∀ r ∈ [sample, { sample with state := .lapsed }, { sample with state := .held 1 },
           { sample with state := .held 7, queue := [2, 1, 3] }, { sample with state := .held 7, queue := [2, 3, 4, 5] },
           { sample with state := .held 7, queue := [2, 3, 4] }],
      ∀ o ∈ ([0x00, 0x02] : List Byte),
        let f := ask .claim 1 o [5, 0]
        let s := on r .claim 1 o [5, 0]
        s.Admits 0 .claim f 1 ∧ parseHandle (optWait ||| optGuard) (frameOptions f) (frameBody f) = some (⟨5, 0⟩, none)
          ∧ s.Names ⟨5, 0⟩ r ∧ s.holds 1 r.cls .claim = true ∧ GuardPasses none r := by
  intro r _ o h
  refine ⟨on_admits r .claim 1 o _ (by decide) (by decide), ?_, on_names _ _ _ _ _, on_holds _ _ _ _ _ _ _ _, .inl rfl⟩
  rw [show frameOptions (ask .claim 1 o [5, 0]) = o from rfl, show frameBody (ask .claim 1 o [5, 0]) = [5, 0] from rfl]
  revert o; decide

/-- Sixteen records with four waiters each: the pool of 64 is used up, and slot 5 has room. -/
def crowded : State :=
  { able with slots := Tab.ofFn fun i => if 16 ≤ i.val ∧ i.val < 32 then
      { inc := 0, record := some { sample with state := .held 7, queue := [1, 2, 3, 4] } } else Slot.powerOn }

theorem witness_ClaimDecidedByTheTable_pool :
    64 ≤ crowded.claimsInUse ∧ able.claimsInUse < 64 := by decide +kernel

/-- RELEASE by the owner and REVOKE by agent 0, with no waiter and with two; REVOKE of records that are not HELD. -/
theorem witness_ReleaseAndRevokeHandOn :
    (∀ r ∈ [{ sample with state := .held 1 }, { sample with state := .held 1, queue := [2, 0] }],
        let f := ask .release 1 0 [5, 0]
        let s := on r .release 1 0 [5, 0]
        s.Admits 0 .release f 1 ∧ parseHandle optGuard (frameOptions f) (frameBody f) = some (⟨5, 0⟩, none)
          ∧ s.Names ⟨5, 0⟩ r ∧ r.state = .held 1 ∧ GuardPasses none r)
      ∧ (∀ r ∈ [{ sample with state := .held 1 }, { sample with state := .held 0, queue := [2, 1] },
                { sample with state := .held 1, queue := [0] }, sample, { sample with state := .lapsed }],
          let f := ask .revoke 0 0 [5, 0]
          let s := on r .revoke 0 0 [5, 0]
          s.Admits 0 .revoke f 0 ∧ parseHandle 0 (frameOptions f) (frameBody f) = some (⟨5, 0⟩, none)
            ∧ s.Names ⟨5, 0⟩ r) := by
  refine ⟨fun r h => ⟨on_admits r .release 1 0 _ (by decide) (by decide), by decide, on_names _ _ _ _ _, ?_, .inl rfl⟩,
    fun r _ => ⟨on_admits r .revoke 0 0 _ (by decide) (fun _ => rfl), by decide, on_names _ _ _ _ _⟩⟩
  revert r; decide

theorem witness_CancelClaimAndRestore :
    (∀ r ∈ [sample, { sample with state := .held 7, queue := [2, 1, 3] }],
        let f := ask .cancelClaim 1 0 [5, 0]
        let s := on r .cancelClaim 1 0 [5, 0]
        s.Admits 0 .cancelClaim f 1 ∧ parseHandle 0 (frameOptions f) (frameBody f) = some (⟨5, 0⟩, none)
          ∧ s.Names ⟨5, 0⟩ r)
      ∧ (∀ r ∈ [sample, { sample with state := .lapsed, safePending := true }, { sample with state := .held 7 }],
          let f := ask .restore 0 0 [5, 0]
          let s := on r .restore 0 0 [5, 0]
          s.Admits 0 .restore f 0 ∧ parseHandle 0 (frameOptions f) (frameBody f) = some (⟨5, 0⟩, none)
            ∧ s.Names ⟨5, 0⟩ r) :=
  ⟨fun r _ => ⟨on_admits r .cancelClaim 1 0 _ (by decide) (by decide), by decide, on_names _ _ _ _ _⟩,
   fun r _ => ⟨on_admits r .restore 0 0 _ (by decide) (fun _ => rfl), by decide, on_names _ _ _ _ _⟩⟩

/-! ### Witnesses: staging and tuning -/

/-- STAGE of a value at each limit (group 3 ON_STAGE), and one past each; UNSTAGE with and without a staged value. The
records are unbound and bound; agent 0 stages on one that is OPEN, agent 1 on its own. -/
theorem witness_StageAndUnstage :
    ∀ r ∈ [{ sample with state := .held 1, staged := some 5 }, { sample with state := .held 1, binding := some 31 }],
      (∀ v ∈ [((0xFF, 0x9C) : Byte × Byte), (0x00, 0x64), (0xFF, 0x9B), (0x00, 0x65)],
          let f := ask .stage 1 0 [5, 0, v.1, v.2]
          let s := on r .stage 1 0 [5, 0, v.1, v.2]
          s.Admits 0 .stage f 1 ∧ parseStage (frameOptions f) (frameBody f) = some (⟨5, 0⟩, word16 v.1 v.2, none)
            ∧ s.Names ⟨5, 0⟩ r ∧ s.holds 1 r.cls .stage = true ∧ r.OwnershipPasses .stage 1 ∧ GuardPasses none r
            ∧ (s.group r.group).trigger = .onStage)
        ∧ (let f := ask .unstage 1 0 [5, 0]
           let s := on r .unstage 1 0 [5, 0]
           s.Admits 0 .unstage f 1 ∧ parseHandle optGuard (frameOptions f) (frameBody f) = some (⟨5, 0⟩, none)
            ∧ s.Names ⟨5, 0⟩ r) := by
  intro r h
  refine ⟨fun v hv => ⟨on_admits r .stage 1 0 _ (by decide) (by decide), ?_, on_names _ _ _ _ _,
      on_holds _ _ _ _ _ _ _ _, .inl ?_, .inl rfl, ?_⟩,
    on_admits r .unstage 1 0 _ (by decide) (by decide), by decide, on_names _ _ _ _ _⟩
  · rw [show frameOptions (ask .stage 1 0 [5, 0, v.1, v.2]) = 0 from rfl,
      show frameBody (ask .stage 1 0 [5, 0, v.1, v.2]) = [5, 0, v.1, v.2] from rfl]
    rfl
  · revert r; decide
  · show (State.group ready r.group).trigger = _
    revert r; decide

/-- A STAGE by agent 0 on a LAPSED record of a COMMAND group. -/
theorem witness_StageAndUnstage_waiting :
    let r : Record := { sample with state := .lapsed, safePending := true }
    let base : State := { able with groups := Tab.replicate 8 { Group.powerOn with trigger := .command } }
    let f := ask .stage 0 0 [5, 0, 0, 0]
    let s := pose (base.setRecord 5 (some r)) f 0
    s.Admits 0 .stage f 0 ∧ s.record 5 = some r ∧ s.holds 0 r.cls .stage = true ∧ r.OwnershipPasses .stage 0
      ∧ (s.group r.group).trigger ≠ .onStage :=
  ⟨pose_admits _ .stage 0 0 _ (by decide) (fun _ => rfl), State.record_setRecord_self _ _ _, by decide,
   .inr ⟨rfl, .inr rfl⟩, by decide⟩

/-- A staged value past the limits a TUNE gives; a TUNE whose limits, live, staged and safe value all pass; one that
names another group. -/
theorem witness_TuneRefusesLimitConflict :
    let r : Record := { sample with state := .held 1, staged := some 50, live := 0 }
    ∀ body ∈ ([[5, 0, 0x03, 0, 1, 0, 0], [5, 0, 0x03, 0, 1, 0, 2], [5, 0, 0x03, 0, 0, 0, 49],
               [5, 0, 0x03, 0, 0, 0, 50], [5, 0, 0x1F, 0, 0, 0, 50, 0, 50, 1, 4]] : List (List Byte)),
      let f := ask .tune 1 0 body
      let s := on r .tune 1 0 body
      s.Admits 0 .tune f 1 ∧ (parseTune (frameOptions f) (frameBody f)).map (fun q => (q.handle, q.guard))
          = some (⟨5, 0⟩, none)
        ∧ s.Names ⟨5, 0⟩ r ∧ s.holds 1 r.cls .tune = true ∧ r.state = .held 1 ∧ GuardPasses none r := by
  intro r body h
  refine ⟨on_admits r .tune 1 0 _ (by decide) (by decide), ?_, on_names _ _ _ _ _, on_holds _ _ _ _ _ _ _ _, rfl, .inl rfl⟩
  rw [show frameOptions (ask .tune 1 0 body) = 0 from rfl, show frameBody (ask .tune 1 0 body) = body from
    frameBody_frameOf _ _ _ _ _]
  revert body; decide

/-- A TUNE of group alone, of a record with a staged value, with a pending safe value, and with neither; bound and
unbound; the group's trigger is ON_STAGE. -/
theorem witness_TuneWritesAndApplies :
    ∀ r ∈ [{ sample with state := .held 1, staged := some 5 }, { sample with state := .held 1, safePending := true },
           { sample with state := .held 1, staged := some 5, binding := some 31 }, { sample with state := .held 1 }],
      let f := ask .tune 1 0 [5, 0, 0x10, 4]
      let s := on r .tune 1 0 [5, 0, 0x10, 4]
      s.Admits 0 .tune f 1
        ∧ parseTune (frameOptions f) (frameBody f) =
            some { handle := ⟨5, 0⟩, limits := none, safe := none, policy := none, group := some 4, guard := none }
        ∧ s.Names ⟨5, 0⟩ r ∧ s.holds 1 r.cls .tune = true ∧ r.state = .held 1 ∧ GuardPasses none r
        ∧ ({ r with group := 4, revision := r.revision + 1 } : Record).LimitsLaw ∧ (4 : GroupNo) ≠ r.group
        ∧ (s.group 4).trigger = .onStage := by
  intro r h
  refine ⟨on_admits r .tune 1 0 _ (by decide) (by decide), by decide, on_names _ _ _ _ _, on_holds _ _ _ _ _ _ _ _, ?_,
    .inl rfl, ?_, ?_, ?_⟩
  · revert r; decide
  · simp only [List.mem_cons, List.not_mem_nil, or_false] at h
    rcases h with rfl | rfl | rfl | rfl <;>
      exact ⟨by decide, by decide, by decide, fun v hv => by first | (cases hv; decide) | cases hv⟩
  · revert r; decide
  · show (State.group ready 4).trigger = _
    decide

/-! ### Witnesses: groups, watches, attention, channels -/

/-- APPLY of groups 0 and 7 by agent 0, and by agent 1 outside and inside the apply-agent sets, with the trigger not
COMMAND and COMMAND; SET_GROUP at the greatest period. -/
theorem witness_ApplyAndSetGroup :
    let f := ask .apply 1 0 [0x81]
    let commanded : Group := { Group.powerOn with trigger := .command, applyAgents := FinSet.full 8 }
    let allIn := pose { able with groups := Tab.replicate 8 { commanded with trigger := .strobe } } f 1
    let allCommand := pose { able with groups := Tab.replicate 8 commanded } f 1
    (∀ s ∈ [pose able f 1, allIn, allCommand], s.Admits 0 .apply f 1)
      ∧ parseGroupSet (frameOptions f) (frameBody f) = some (FinSet.ofByte 8 0x81)
      ∧ ((pose able f 1).group 7).applyAgents.mem 1 = false ∧ (FinSet.ofByte 8 0x81).mem 7 = true
      ∧ (∀ g, (allIn.group g).applyAgents.mem 1 = true) ∧ (allIn.group 0).trigger ≠ .command
      ∧ (∀ g, (allCommand.group g).applyAgents.mem 1 = true ∧ (allCommand.group g).trigger = .command)
      ∧ (let f := ask .setGroup 0 0 [7, 2, 3, 0xEA, 0x60, 0xFF]
         (pose able f 0).Admits 0 .setGroup f 0
          ∧ (parseSetGroup (frameOptions f) (frameBody f)).map (·.period) = some 60000) := by
  refine ⟨fun s h => ?_, by decide, by decide, by decide, by decide, by decide, by decide,
    pose_admits able .setGroup 0 0 _ (by decide) (fun _ => rfl), by decide⟩
  simp only [List.mem_cons, List.not_mem_nil, or_false] at h
  rcases h with rfl | rfl | rfl <;> exact pose_admits _ .apply 1 0 _ (by decide) (by decide)

theorem witness_WatchAndUnwatch : ∀ r ∈ [sample, { sample with watchers := FinSet.full 8 }],
    (let f := ask .watch 1 0 [5, 0]
     let s := on r .watch 1 0 [5, 0]
     parseHandle 0 (frameOptions f) (frameBody f) = some (⟨5, 0⟩, none) ∧ s.Names ⟨5, 0⟩ r ∧ s.Admits 0 .watch f 1
      ∧ s.holds 1 r.cls .watch = true)
      ∧ (let f := ask .unwatch 1 0 [5, 0]
         let s := on r .unwatch 1 0 [5, 0]
         parseHandle 0 (frameOptions f) (frameBody f) = some (⟨5, 0⟩, none) ∧ s.Names ⟨5, 0⟩ r
          ∧ s.Admits 0 .unwatch f 1) :=
  fun r _ => ⟨⟨by decide, on_names _ _ _ _ _, on_admits r .watch 1 0 _ (by decide) (by decide),
    on_holds _ _ _ _ _ _ _ _⟩, by decide, on_names _ _ _ _ _, on_admits r .unwatch 1 0 _ (by decide) (by decide)⟩

theorem witness_FetchTakesTheHeadOfTheList : ∀ a ∈ [(0 : Agent), 7],
    let f := ask .fetchAttention a 0 []
    (pose ready f a).Admits 0 .fetchAttention f a ∧ frameOptions f = 0 ∧ frameBody f = [] :=
  fun a _ => ⟨pose_admits _ .fetchAttention a 0 [] (by decide) (fun h => absurd h (by decide)), rfl, rfl⟩

/-- BIND of a bound and of an unbound channel, of a bound and of an unbound record; UNBIND and SET_PARK likewise. -/
theorem witness_BindUnbindSetPark :
    let bindTo : Option SlotNo → State := fun b => able.setChannel 31 { Channel.powerOn with binding := b }
    (∀ r ∈ [sample, { sample with binding := some 0 }],
        let f := ask .bind 0 0 [31, 5, 0]
        (on r .bind 0 0 [31, 5, 0]).Admits 0 .bind f 0
          ∧ parseBind (frameOptions f) (frameBody f) = some (31, ⟨5, 0⟩) ∧ (on r .bind 0 0 [31, 5, 0]).Names ⟨5, 0⟩ r
          ∧ ((on r .bind 0 0 [31, 5, 0]).channel 31).binding = none)
      ∧ (∀ b ∈ [none, some (255 : SlotNo)],
          (let f := ask .unbind 0 0 [31]
           let s := pose ((bindTo b).setRecord 255 (some { sample with binding := some 31 })) f 0
           s.Admits 0 .unbind f 0 ∧ parseChannel (frameOptions f) (frameBody f) = some 31
            ∧ (s.channel 31).binding = b ∧ s.record 255 = some { sample with binding := some 31 })
          ∧ (let f := ask .setPark 0 0 [31, 0x80, 0]
             (pose (bindTo b) f 0).Admits 0 .setPark f 0
              ∧ parseSetPark (frameOptions f) (frameBody f) = some (31, 0x8000)
              ∧ ((pose (bindTo b) f 0).channel 31).binding = b)) := by
  refine ⟨fun r _ => ⟨on_admits r .bind 0 0 _ (by decide) (fun _ => rfl), by decide, on_names _ _ _ _ _, ?_⟩,
    fun b _ => ⟨⟨pose_admits _ .unbind 0 0 _ (by decide) (fun _ => rfl), by decide, ?_,
      State.record_setRecord_self _ _ _⟩, pose_admits _ .setPark 0 0 _ (by decide) (fun _ => rfl), by decide, ?_⟩⟩
  · show (ready.channel 31).binding = none
    simp [State.channel, ready, State.reset, Channel.powerOn]
  · exact congrArg Channel.binding (State.channel_setChannel_self able 31 _)
  · exact congrArg Channel.binding (State.channel_setChannel_self able 31 _)

theorem witness_LinkResumeRestartsTheFrame :
    ∀ link ∈ [Link.stalled frame4, .idle, .sending frame4 4, .awaitAck frame4 4 0],
      let f := ask .linkResume 0 0 []
      let s := pose { ready with link := link } f 0
      s.Admits 0 .linkResume f 0 ∧ frameOptions f = 0 ∧ frameBody f = [] ∧ s.link = link :=
  fun _ _ => ⟨pose_admits _ .linkResume 0 0 [] (by decide) (fun _ => rfl), rfl, rfl, rfl⟩

end Sys2Proof.Tests
end

