-- ==== Sys2Proof/Proofs/CreateRefusals.lean ====
section
/-! PROOF. The refusals of CREATE at check 9: the key, then space, then the values (R15). -/
namespace Sys2Proof.Machine

/-! ### The three conditions of CREATE, each in its place -/

section
variable {s : State} {q : Request} {f : CreateFields}

/-- First, the key: an index entry for it refuses the request, whatever the free list and the values are. -/
theorem carryCreate_of_key_in_use (hparse : parseCreate q.options q.body = some f)
    (hright : s.holds q.agent f.cls .create = true) (hkey : ∃ e ∈ s.keyIndex, e.1 = f.key) :
    carryCreate q s = refuse s .exists_ := by
  have hfound : findKey f.key s.keyIndex ≠ none := by
    obtain ⟨e, he, hek⟩ := hkey
    exact fun hnone => findKey_none.1 hnone e he hek
  simp [carryCreate, hparse, needRight_of_holds hright, Option.isSome_iff_ne_none, hfound]

/-- Then space: with the key free, an empty free list refuses the request, whatever the values are. -/
theorem carryCreate_of_no_free_slot (hparse : parseCreate q.options q.body = some f)
    (hright : s.holds q.agent f.cls .create = true) (hkey : ∀ e ∈ s.keyIndex, e.1 ≠ f.key)
    (hfull : s.freeList = []) : carryCreate q s = refuse s .directoryFull := by
  simp [carryCreate, hparse, needRight_of_holds hright, findKey_none.2 hkey, hfull]

/-- Then the values: with the key free and a slot free, a live or safe value that is not within the limits refuses the
request. -/
theorem carryCreate_of_value_outside (hparse : parseCreate q.options q.body = some f)
    (hright : s.holds q.agent f.cls .create = true) (hkey : ∀ e ∈ s.keyIndex, e.1 ≠ f.key)
    (hspace : s.freeList ≠ []) (hvalues : (within f.live f.min f.max && within f.safe f.min f.max) = false) :
    carryCreate q s = refuse s .outOfRange := by
  obtain ⟨i, rest, hfree⟩ := List.exists_cons_of_ne_nil hspace
  simp [carryCreate, hparse, needRight_of_holds hright, findKey_none.2 hkey, hfree, hvalues]

end

/-- A value below the lower or above the upper limit is not within the limits (R2). -/
theorem within_eq_false_iff {v lo hi : Value} :
    within v lo hi = false ↔ v.toInt < lo.toInt ∨ hi.toInt < v.toInt := by
  rw [← Bool.not_eq_true, within_iff]
  omega

/-- An admitted request whose execution refuses it answers the refusal, and only the take and the renewal have been
written (R36, R39). -/
theorem exec_of_refused {k : ReqKind} {p : PortId} {f : List Byte} {a : Agent} {s : State} {o : ReqOutcome}
    (h : s.Admits p k f a)
    (href : carryOf k (requestOf f a p (s.ticksLeft a)) (s.begun p a) = refuse (s.begun p a) o) :
    exec (requestInstr k p .whole) s = .next ((s.begun p a).answered p f o []) := by
  rw [exec_of_admits h, href]
  rfl

/-! ### The obligation -/

/-- Settles O47: each condition refuses in its place in `carryCreate`, and the take and the renewal, which come before
it, leave the key index, the free list, the rights and the records as they were. -/
theorem createRefusedInOrder : Obligations.CreateRefusedInOrder := by
  intro s p f a q hadm hparse hright outside
  refine ⟨fun hkey => ?key, fun hkey hfull => ?space, fun hkey hspace hvalue => ?values,
    State.begun_freeList s p a, State.begun_keyIndex s p a, State.begun_slots s p a⟩
  case key => exact exec_of_refused hadm (carryCreate_of_key_in_use hparse hright hkey)
  case space => exact exec_of_refused hadm (carryCreate_of_no_free_slot hparse hright hkey hfull)
  case values =>
    have hvalues : (within q.live q.min q.max && within q.safe q.min q.max) = false := by
      rw [Bool.and_eq_false_iff, within_eq_false_iff, within_eq_false_iff]
      exact hvalue
    exact exec_of_refused hadm (carryCreate_of_value_outside hparse hright hkey hspace hvalues)

end Sys2Proof.Machine
end

