-- ==== Sys2Proof/Proofs/UnknownKind.lean ====
section
/-! PROOF. Check 1: a request of a kind code that Table 11-1 does not assign (R37). -/
namespace Sys2Proof.Machine

/-! ### The assigned kind codes -/

theorem mem_allKinds (k : ReqKind) : k ∈ allKinds := by
  cases k <;> decide

theorem codeAssigned_eq_false_iff {b : Byte} : codeAssigned b = false ↔ ∀ k : ReqKind, k.code ≠ b := by
  simp [codeAssigned, mem_allKinds]

/-! ### The service of an unassigned kind -/

theorem exec_unknownKind (p : PortId) (x : Extent) (s : State) :
    exec (.unknownKind p x) s =
      .next (serveFrame (fun b => !codeAssigned b) (fun _ t => refuse t .unknownKind) p x s) := rfl

/-- The refusal reads nothing of the frame but its kind code and its tag, and of the state nothing but the grant: the
agent, the epoch and the sessions have no part in it, and only the take comes before the delivery. -/
theorem exec_unknownKind_whole_of_offers {p : PortId} {f : List Byte} {b : Byte} {s : State} (h : s.Offers p f b)
    (hb : codeAssigned b = false) :
    exec (.unknownKind p .whole) s = .next ((s.takeFrom p).answered p f .unknownKind []) := by
  rw [exec_unknownKind]
  simp [serveFrame, h.grantedFrame, h.kind, hb, wholeRequest, refuse, State.answered]

/-! ### The obligation -/

/-- Settles O14: no assigned kind has the code, so check 1 fails, before the session checks and the renewal. -/
theorem unknownKindRefused : Obligations.UnknownKindRefused := by
  intro p f b s hoffers hcode
  exact exec_unknownKind_whole_of_offers hoffers (codeAssigned_eq_false_iff.2 hcode)

end Sys2Proof.Machine
end

