-- ==== Sys2Proof/Proofs/SupervisorRights.lean ====
section
/-! PROOF. Agent 0's row of rights: full in every class, and closed to SET_RIGHTS (R31). -/
namespace Sys2Proof.Machine

/-! ### The row as the model reads it -/

@[simp] theorem State.rightsOf_supervisor (s : State) (c : ClassNo) : s.rightsOf 0 c = FinSet.full 7 := rfl

@[simp] theorem State.holds_supervisor (s : State) (c : ClassNo) (x : Right) : s.holds 0 c x = true :=
  FinSet.mem_full x.idx

/-- All seven rights, as the byte that reports them (R178). -/
theorem toByte_full_rights : (FinSet.full 7).toByte = 0x7F := by decide

/-! ### The filter of ENUMERATE (R25) -/

theorem State.mem_readableAfter {s : State} {a : Agent} {after : Key} {h : Handle} {r : Record} :
    (h, r) ∈ s.readableAfter a after ↔
      ∃ k i, (k, i) ∈ s.keyIndex ∧ after.toNat < k.toNat ∧ s.record i = some r ∧ s.holds a r.cls .read = true
        ∧ s.handleOf i = h := by
  unfold State.readableAfter
  rw [List.mem_filterMap]
  constructor
  · rintro ⟨⟨k, i⟩, hmem, hgives⟩
    refine ⟨k, i, hmem, ?_⟩
    cases hrec : s.record i with
    | none => simp [hrec] at hgives
    | some r' =>
      simp only [hrec, Option.ite_none_right_eq_some, Option.some.injEq, Prod.mk.injEq] at hgives
      obtain ⟨hafter, hholds, hhandle, rfl⟩ := hgives
      exact ⟨hafter, rfl, hholds, hhandle⟩
  · rintro ⟨k, i, hmem, hafter, hrec, hholds, hhandle⟩
    exact ⟨(k, i), hmem, by simp [hafter, hrec, hholds, hhandle]⟩

/-! ### The report of QUERY_AGENT (R65) -/

/-- The report ends in the agent's rights, one byte per class. -/
theorem State.agentReport_ends_in_rights (s : State) (a : Agent) :
    ∃ front, s.agentReport a = front ++ (List.finRange 8).map fun c => (s.rightsOf a c).toByte :=
  ⟨_, rfl⟩

theorem rights_report_supervisor (s : State) :
    ((List.finRange 8).map fun c => (s.rightsOf 0 c).toByte) = List.replicate 8 0x7F := by
  simp [toByte_full_rights]

/-! ### The target of SET_RIGHTS (R33) -/

/-- A body that begins with agent 0 reads as no SET_RIGHTS, whatever its options, class and rights byte. -/
theorem parseSetRights_supervisor (o : Byte) (rest : List Byte) : parseSetRights o (0 :: rest) = none := by
  cases hsplit : splitBody 0 3 o (0 :: rest) with
  | none => simp only [parseSetRights, hsplit]
  | some fields =>
    obtain ⟨bytes, g⟩ := fields
    obtain ⟨-, hlen, hbody⟩ := splitBody_iff.1 hsplit
    obtain ⟨a, c, x, rfl⟩ := List.length_eq_three.1 hlen
    obtain rfl : 0 = a := by
      rcases hbody with ⟨-, -, hbody⟩ | ⟨-, w, -, hbody⟩ <;> exact List.head_eq_of_cons_eq hbody
    have hagent : finOf 8 (0 : Byte) = some 0 := finOf_eq_some.2 rfl
    cases hclass : finOf 8 c <;> simp only [parseSetRights, hsplit, hagent, hclass, true_or, if_true]

theorem carrySetRights_supervisor {q : Request} {rest : List Byte} (hbody : q.body = 0 :: rest) (s : State) :
    carrySetRights q s = refuse s .badField := by
  simp only [carrySetRights, hbody, parseSetRights_supervisor]

/-! ### The obligation -/

/-- Settles O19: every clause turns on agent 0's row being the full set, which no field of the state holds; SET_RIGHTS
reads no fields from a body that names agent 0. -/
theorem supervisorHoldsEveryRight : Obligations.SupervisorHoldsEveryRight := by
  refine ⟨fun s c x k => ?checks, fun s after k i r hmem hafter hrec => ?filter, fun s => ?report,
    fun s p f c x hadm hbody => ?target⟩
  case checks => exact ⟨s.holds_supervisor c x, needRight_of_holds (s.holds_supervisor c x) k⟩
  case filter => exact State.mem_readableAfter.2 ⟨k, i, hmem, hafter, hrec, s.holds_supervisor r.cls .read, rfl⟩
  case report =>
    obtain ⟨front, hreport⟩ := s.agentReport_ends_in_rights 0
    exact ⟨front, by rw [hreport, rights_report_supervisor]⟩
  case target => exact exec_of_refused hadm (carrySetRights_supervisor hbody _)

end Sys2Proof.Machine
end

section
/-! PROOF. The combined limit test of TUNE: the item it reports, and the law of the limits on what is written (R98). -/
namespace Sys2Proof.Machine

/-! ### The limit test, item by item -/

section
variable {r : Record}

/-- A value below the record's minimum or above its maximum (R2). -/
def Record.Outside (r : Record) (v : Value) : Prop := v.toInt < r.min.toInt ∨ r.max.toInt < v.toInt

theorem Record.outside_iff {v : Value} : r.Outside v ↔ within v r.min r.max = false :=
  within_eq_false_iff.symm

theorem Record.not_outside_iff {v : Value} : ¬ r.Outside v ↔ within v r.min r.max = true := by
  rw [outside_iff, Bool.not_eq_false]

theorem Record.limitsLaw_iff : r.LimitsLaw ↔ r.min.toInt ≤ r.max.toInt ∧ ¬ r.Outside r.live ∧ ¬ r.Outside r.safe
    ∧ ∀ v, r.staged = some v → ¬ r.Outside v := by
  simp only [LimitsLaw, not_outside_iff, BitVec.sle_iff_toInt_le]

theorem Record.limitConflict_limits (hlim : r.max.toInt < r.min.toInt) : r.limitConflict = some (0, r.min) := by
  simp [limitConflict, BitVec.slt_iff_toInt_lt, hlim]

theorem Record.limitConflict_live (hlim : r.min.toInt ≤ r.max.toInt) (hlive : r.Outside r.live) :
    r.limitConflict = some (1, r.live) := by
  simp [limitConflict, BitVec.slt_iff_toInt_lt, hlim.not_gt, outside_iff.1 hlive]

theorem Record.limitConflict_staged {v : Value} (hlim : r.min.toInt ≤ r.max.toInt) (hlive : ¬ r.Outside r.live)
    (hv : r.staged = some v) (hstaged : r.Outside v) : r.limitConflict = some (2, v) := by
  simp [limitConflict, BitVec.slt_iff_toInt_lt, hlim.not_gt, not_outside_iff.1 hlive, hv, outside_iff.1 hstaged]

theorem Record.limitConflict_safe (hlim : r.min.toInt ≤ r.max.toInt) (hlive : ¬ r.Outside r.live)
    (hstaged : ∀ v, r.staged = some v → ¬ r.Outside v) (hsafe : r.Outside r.safe) :
    r.limitConflict = some (3, r.safe) := by
  cases hv : r.staged with
  | none =>
    simp [limitConflict, BitVec.slt_iff_toInt_lt, hlim.not_gt, not_outside_iff.1 hlive, hv, outside_iff.1 hsafe]
  | some v =>
    simp [limitConflict, BitVec.slt_iff_toInt_lt, hlim.not_gt, not_outside_iff.1 hlive, hv,
      not_outside_iff.1 (hstaged v hv), outside_iff.1 hsafe]

/-- An application takes a value that the law already bounds, and leaves the limits (R2, R119). -/
theorem Record.LimitsLaw.applyWork {r' : Record} (h : r.LimitsLaw) (hwork : r.applyWork = some r') : r'.LimitsLaw := by
  obtain ⟨hlim, -, hsafe, hstaged⟩ := h
  rcases applyWork_cases r with ⟨-, -, hnone⟩ | ⟨v, hv, happ⟩ | ⟨-, -, happ⟩
  · rw [hnone] at hwork; cases hwork
  · rw [happ] at hwork; cases hwork
    exact ⟨hlim, hstaged v hv, hsafe, by simp⟩
  · rw [happ] at hwork; cases hwork
    exact ⟨hlim, hsafe, hsafe, by simp⟩

end

/-! ### The record as a TUNE would leave it -/

section
variable (r : Record) (t : TuneFields)

theorem Record.tuned_min : (r.tuned t).min = (t.limits.map (·.1)).getD r.min := by
  cases h : t.limits <;> simp [tuned, h]

theorem Record.tuned_max : (r.tuned t).max = (t.limits.map (·.2)).getD r.max := by
  cases h : t.limits <;> simp [tuned, h]

theorem Record.tuned_safe : (r.tuned t).safe = t.safe.getD r.safe := rfl

end

/-! ### What an accepted TUNE writes -/

theorem record_liveChanged (s : State) (i j : SlotNo) (r : Record) (new : Value) (who : AgentSet) :
    (s.liveChanged i r new who).record j = s.record j := by
  have hslots : (s.liveChanged i r new who).slots = s.slots := by
    unfold State.liveChanged
    split
    · rfl
    · rw [State.conditionAll_slots, slots_noticeChange]
  rw [State.record, hslots, State.record]

theorem tuneAccepted_outcome (s : State) (r : Record) (a : Agent) (t : TuneFields) :
    (tuneAccepted s r a t).outcome = .done := by
  unfold tuneAccepted
  split <;> rfl

/-- An accepted TUNE writes the tuned record, or what its application makes of it (R99, R102). -/
theorem record_tuneAccepted (s : State) (r : Record) (a : Agent) (t : TuneFields) :
    ∃ r', (tuneAccepted s r a t).st.record t.handle.slot = some r'
      ∧ (r' = r.tuned t ∨ (r.tuned t).applyWork = some r') := by
  unfold tuneAccepted
  split
  · next r' hwork =>
    have happ : (r.tuned t).applyWork = some r' := by
      unfold State.tuneWork at hwork
      split at hwork
      · exact hwork
      · cases hwork
    exact ⟨r', by simp [record_liveChanged], .inr happ⟩
  · exact ⟨r.tuned t, by simp, .inl rfl⟩

/-! ### TUNE past checks 4 to 8 -/

section
variable {s : State} {q : Request} {t : TuneFields} {r : Record}

theorem carryTune_of_checks (hparse : parseTune q.options q.body = some t) (hnames : s.Names t.handle r)
    (hright : s.holds q.agent r.cls .tune = true) (howner : q.agent = 0 ∨ r.state = .held q.agent)
    (hguard : GuardPasses t.guard r) :
    (∀ item v, (r.tuned t).limitConflict = some (item, v) → carryTune q s =
        { st := s, outcome := .limitConflict,
          body := item :: bytes16 (r.tuned t).min ++ bytes16 (r.tuned t).max ++ bytes16 v })
      ∧ ((r.tuned t).limitConflict = none → carryTune q s = tuneAccepted s r q.agent t) := by
  have hcheck7 : (q.agent == 0 || r.heldBy q.agent) = true := by
    simpa [Record.heldBy] using howner
  refine ⟨fun item v hconflict => ?_, fun hnone => ?_⟩
  all_goals
    simp only [carryTune, onHandle_of_names hnames, needRight_of_holds hright, needOwner_true,
      needGuard_of_passes hguard, *]

end

/-! ### The obligation -/

/-- Settles O54: the items of the limit test are tried in the order of R98 on the tuned record, a failed one answers
from the state as the take and the renewal left it, and past them the tuned record keeps the law of the limits, which an
application within the request keeps too. -/
theorem tuneRefusesLimitConflict : Obligations.TuneRefusesLimitConflict := by
  intro s p f a q r hadm hparse hnames hright howner hguard
  dsimp only
  rw [← Record.tuned_min, ← Record.tuned_max, ← Record.tuned_safe]
  obtain ⟨hrefused, haccepted⟩ := carryTune_of_checks (q := requestOf f a p (s.ticksLeft a)) hparse
    (hnames.begun p a) hright howner hguard
  have hexec := exec_of_admits hadm
  have hconflict : ∀ item v, (r.tuned q).limitConflict = some (item, v) → exec (.tune p .whole) s =
      .next ((s.begun p a).answered p f .limitConflict
        ([item] ++ bytes16 (r.tuned q).min ++ bytes16 (r.tuned q).max ++ bytes16 v)) := by
    intro item v hitem
    rw [carryOf, hrefused item v hitem] at hexec
    exact hexec
  refine ⟨fun hlim => ?limits, fun hlim hlive => ?live, fun hlim hlive v hv hstaged => ?staged,
    fun hlim hlive hstaged hsafe => ?safe, fun hlim hlive hstaged hsafe => ?written, State.begun_slots s p a⟩
  case limits => exact hconflict _ _ (Record.limitConflict_limits hlim)
  case live => exact hconflict _ _ (Record.limitConflict_live hlim hlive)
  case staged => exact hconflict _ _ (Record.limitConflict_staged hlim hlive hv hstaged)
  case safe => exact hconflict _ _ (Record.limitConflict_safe hlim hlive hstaged hsafe)
  case written =>
    have hlaw : (r.tuned q).LimitsLaw := Record.limitsLaw_iff.2 ⟨hlim, hlive, hsafe, hstaged⟩
    obtain ⟨r', hrec, hr'⟩ := record_tuneAccepted (s.begun p a) r a q
    rw [carryOf, haccepted (limitConflict_none_iff.2 hlaw), tuneAccepted_outcome] at hexec
    refine ⟨_, _, r', hexec, hrec, ?_⟩
    rcases hr' with rfl | happ
    · exact hlaw
    · exact hlaw.applyWork happ

end Sys2Proof.Machine
end

section
/-! PROOF. The step of an active sweep: the next member is visited, or the sweep ends (R119, R120). -/
namespace Sys2Proof.Machine

/-! ### The next member above the cursor -/

/-- Slot `i` lies above the cursor and holds a member of the sweeping group. -/
def State.memberAbove (s : State) (w : Sweep) (i : SlotNo) : Bool :=
  aboveCursor w.cursor i && (s.record i).any fun r => r.group == w.group

theorem nextMember_eq_find (s : State) (w : Sweep) : s.nextMember w = allSlots.find? (s.memberAbove w) := by
  unfold State.nextMember
  congr 1
  funext i
  cases hrec : s.record i <;> simp [State.memberAbove, hrec]

section
variable {s : State} {w : Sweep} {i : SlotNo} {r : Record}

theorem memberAbove_iff :
    s.memberAbove w i = true ↔
      (∀ j, w.cursor = some j → j < i) ∧ ∃ r, s.record i = some r ∧ r.group = w.group := by
  simp [State.memberAbove, aboveCursor_iff, Option.any_eq_true]

theorem memberAbove_eq_false
    (h : ∀ q, s.record i = some q → (∀ j, w.cursor = some j → j < i) → q.group ≠ w.group) :
    s.memberAbove w i = false := by
  refine Bool.eq_false_iff.2 fun hmember => ?_
  obtain ⟨habove, q, hrec, hgroup⟩ := memberAbove_iff.1 hmember
  exact h q hrec habove hgroup

theorem nextMember_eq_some (hmember : s.memberAbove w i = true) (hlowest : ∀ j, j < i → s.memberAbove w j = false) :
    s.nextMember w = some i := by
  rw [nextMember_eq_find]
  exact find_lowest _ i hmember hlowest

theorem nextMember_eq_none (hnone : ∀ j, s.memberAbove w j = false) : s.nextMember w = none := by
  rw [nextMember_eq_find]
  exact find_none _ hnone

/-! ### One step of the sweep -/

theorem sweepOnce_of_member (hnext : s.nextMember w = some i) (hrec : s.record i = some r) :
    s.sweepOnce w = { s.visit i r with sweep := some { group := w.group, cursor := some i } } := by
  simp [State.sweepOnce, hnext, hrec]

theorem sweepOnce_of_no_member (hnext : s.nextMember w = none) : s.sweepOnce w = { s with sweep := none } := by
  simp [State.sweepOnce, hnext]

/-- With no lapse item waiting, the grant of INTERNAL goes to the active sweep (R117). -/
theorem exec_sweepStep_of_grant (hgrant : s.grant = some .internal) (hlapse : ∀ a, (s.row a).expired = false)
    (hsweep : s.sweep = some w) : exec .sweepStep s = .next (s.grantInternal.sweepOnce w) := by
  have hno : s.noLapse = true := by simp [State.noLapse, hlapse]
  have harm : exec .sweepStep s = .next (sweepStepWork s) := rfl
  rw [harm]
  simp [sweepStepWork, hgrant, hno, hsweep]

/-! ### The treatment of one record (R119) -/

/-- What a sweep step has to apply to a record: the staged value, else the safe value when it is pending. -/
def Record.Applies (r : Record) (v : Value) : Prop :=
  r.staged = some v ∨ (r.staged = none ∧ r.safePending = true ∧ r.safe = v)

theorem applyWork_of_applies {v : Value} (h : r.Applies v) :
    r.applyWork = some { r with live := v, staged := none, safePending := false } := by
  unfold Record.applyWork
  rcases h with hstaged | ⟨hstaged, hpending, rfl⟩
  · simp [hstaged]
  · simp [hstaged, hpending]

theorem visit_of_idle (hstaged : r.staged = none) (hpending : r.safePending = false) (s : State) (i : SlotNo) :
    s.visit i r = s := by
  simp [State.visit, Record.applyWork, hstaged, hpending]

theorem visit_of_applies {v : Value} (h : r.Applies v) (s : State) (i : SlotNo) :
    s.visit i r = (s.setRecord i (some { r with
      live := v, staged := none, safePending := false, revision := r.revision + 1 })).liveChanged i r v r.watchers := by
  simp [State.visit, applyWork_of_applies h]

end

/-! ### Beyond the record: the notice and CHANGED -/

theorem noticeChange_of_bound {old new : Value} {c : ChannelNo} (h : old ≠ new) (s : State) :
    s.noticeChange (some c) old new = s.notice c .value new := if_neg h

theorem noticeChange_of_quiet {b : Option ChannelNo} {old new : Value} (h : b = none ∨ old = new) (s : State) :
    s.noticeChange b old new = s := by
  rcases noticeChange_cases s b old new with ⟨-, heq⟩ | ⟨c, hbound, hne, -⟩
  · exact heq
  · rcases h with rfl | rfl
    · cases hbound
    · exact absurd rfl hne

section
variable {r : Record} {v : Value}

theorem liveChanged_of_same (h : r.live = v) (s : State) (i : SlotNo) (who : AgentSet) :
    s.liveChanged i r v who = s := if_pos h

theorem liveChanged_of_changed (h : r.live ≠ v) (s : State) (i : SlotNo) (who : AgentSet) :
    s.liveChanged i r v who =
      (s.noticeChange r.binding r.live v).conditionAll who .changed (s.handleOf i) r.key := if_neg h

end

/-! ### The obligation -/

/-- Settles O31: the step is a search for the next member and then a visit to it; the visit is split by what the record
has to apply, and an application by whether the live value changes and a channel is bound. -/
theorem sweepStepVisitsNextMember : Obligations.SweepStepVisitsNextMember := by
  intro s w hgrant hlapse hsweep
  have hexec := exec_sweepStep_of_grant hgrant hlapse hsweep
  refine ⟨fun i r hrec hgroup habove hlowest => ?member, fun hnone => ?ends⟩
  case ends =>
    have hnext : s.grantInternal.nextMember w = none :=
      nextMember_eq_none fun j => memberAbove_eq_false (hnone j)
    rw [hexec, sweepOnce_of_no_member hnext]
    rfl
  case member =>
    have hnext : s.grantInternal.nextMember w = some i :=
      nextMember_eq_some (memberAbove_iff.2 ⟨habove, r, hrec, hgroup⟩)
        fun j hj => memberAbove_eq_false fun q => hlowest j q hj
    rw [sweepOnce_of_member hnext hrec] at hexec
    refine ⟨fun hstaged hpending => ?idle, fun v happlies => ?applies⟩
    case idle => rw [hexec, visit_of_idle hstaged hpending]; rfl
    case applies =>
      rw [visit_of_applies happlies] at hexec
      refine ⟨fun hsame => ?same, fun hchanged hbinding => ?unbound, fun c hchanged hbinding => ?bound⟩
      case same => rw [hexec, liveChanged_of_same hsame]; rfl
      case unbound =>
        rw [hexec, liveChanged_of_changed hchanged, noticeChange_of_quiet (.inl hbinding), handleOf_setRecord]
        rfl
      case bound =>
        rw [hexec, liveChanged_of_changed hchanged, hbinding, noticeChange_of_bound hchanged, handleOf_setRecord]
        rfl

end Sys2Proof.Machine
end

section
/-! PROOF. One record's lapse step: the record written, the notice of a changed live value, and the attention conditions
of watchers and new owner (R62, R88, R122). -/
namespace Sys2Proof.Machine

/-! ### The lapse policy (R122) -/

/-- The policy sets the live value to the safe value in the lapse step itself: SAFE_NOW, or SAFE_AT_APPLY acting as
SAFE_NOW in an ON_STAGE group. -/
def Record.LapsesToSafe (r : Record) (t : Trigger) : Prop :=
  r.policy = .safeNow ∨ (r.policy = .safeAtApply ∧ t = .onStage)

/-- The policy leaves the safe value to a sweep step: SAFE_AT_APPLY in any other group. -/
def Record.LapsesToPending (r : Record) (t : Trigger) : Prop := r.policy = .safeAtApply ∧ t ≠ .onStage

section
variable {r : Record} {t : Trigger}

theorem lapsePolicy_of_toSafe (h : r.LapsesToSafe t) : r.lapsePolicy t = { r with live := r.safe } := by
  rcases h with hpolicy | ⟨hpolicy, ht⟩
  · simp [Record.lapsePolicy, hpolicy]
  · simp [Record.lapsePolicy, hpolicy, ht]

theorem lapsePolicy_of_toPending (h : r.LapsesToPending t) : r.lapsePolicy t = { r with safePending := true } := by
  obtain ⟨hpolicy, ht⟩ := h
  simp [Record.lapsePolicy, hpolicy, ht]

/-- What remains is HOLD. -/
theorem lapsePolicy_of_neither (hsafe : ¬ r.LapsesToSafe t) (hpending : ¬ r.LapsesToPending t) :
    r.lapsePolicy t = r := by
  cases hpolicy : r.policy with
  | hold => simp [Record.lapsePolicy, hpolicy]
  | safeNow => exact absurd (.inl hpolicy) hsafe
  | safeAtApply =>
    by_cases ht : t = .onStage
    · exact absurd (.inr ⟨hpolicy, ht⟩) hsafe
    · exact absurd ⟨hpolicy, ht⟩ hpending

theorem lapsePolicy_live_of_toSafe (h : r.LapsesToSafe t) : (r.lapsePolicy t).live = r.safe := by
  rw [lapsePolicy_of_toSafe h]

theorem lapsePolicy_live_of_not_toSafe (h : ¬ r.LapsesToSafe t) : (r.lapsePolicy t).live = r.live := by
  by_cases hpending : r.LapsesToPending t
  · rw [lapsePolicy_of_toPending hpending]
  · rw [lapsePolicy_of_neither h hpending]

theorem lapsePolicy_safePending_of_toPending (h : r.LapsesToPending t) : (r.lapsePolicy t).safePending = true := by
  rw [lapsePolicy_of_toPending h]

theorem lapsePolicy_safePending_of_not_toPending (h : ¬ r.LapsesToPending t) :
    (r.lapsePolicy t).safePending = r.safePending := by
  by_cases hsafe : r.LapsesToSafe t
  · rw [lapsePolicy_of_toSafe hsafe]
  · rw [lapsePolicy_of_neither hsafe h]

/-- The policy writes no field but the live value and the safe-pending mark. -/
theorem lapsePolicy_frame (r : Record) (t : Trigger) :
    r.lapsePolicy t = { r with live := (r.lapsePolicy t).live, safePending := (r.lapsePolicy t).safePending } := by
  unfold Record.lapsePolicy
  split
  · rfl
  · rfl
  · split <;> rfl

theorem lapsePolicy_queue (r : Record) (t : Trigger) : (r.lapsePolicy t).queue = r.queue := by
  rw [lapsePolicy_frame]

/-! ### The record after its step (R62) -/

theorem afterLapse_of_no_waiter (h : r.queue = []) (t : Trigger) :
    r.afterLapse t = { (r.lapsePolicy t) with staged := none, state := .lapsed, revision := r.revision + 1 } := by
  simp [Record.afterLapse, h]

theorem afterLapse_of_waiter {w : Agent} {ws : List Agent} (h : r.queue = w :: ws) (t : Trigger) :
    r.afterLapse t =
      { (r.lapsePolicy t) with staged := none, state := .held w, queue := ws, revision := r.revision + 1 } := by
  simp [Record.afterLapse, h]

theorem afterLapse_live (r : Record) (t : Trigger) : (r.afterLapse t).live = (r.lapsePolicy t).live := by
  unfold Record.afterLapse
  split <;> rfl

theorem afterLapse_safePending (r : Record) (t : Trigger) :
    (r.afterLapse t).safePending = (r.lapsePolicy t).safePending := by
  unfold Record.afterLapse
  split <;> rfl

/-- The step writes the live value, the staged value, the safe-pending mark, the state, the queue and the revision, and
no other field. -/
theorem afterLapse_frame (r : Record) (t : Trigger) :
    r.afterLapse t = { r with
      live := (r.afterLapse t).live, staged := none, safePending := (r.afterLapse t).safePending
      state := (r.afterLapse t).state, queue := (r.afterLapse t).queue, revision := r.revision + 1 } := by
  unfold Record.afterLapse
  split
  all_goals rw [lapsePolicy_frame]

end

/-! ### What the step does beyond the record -/

theorem row_setRecord (s : State) (i : SlotNo) (r : Option Record) (b : Agent) :
    (s.setRecord i r).row b = s.row b := rfl

section
variable {s : State} {i : SlotNo} {r : Record}

theorem row_lapseStep (h : s.record i = some r) (b : Agent) :
    (s.lapseStep i).row b =
      (let row := if r.watchers.mem b then (s.row b).condition .lapsed (s.handleOf i) r.key else s.row b
       if r.queue.head? = some b then row.condition .grantedAfterLapse (s.handleOf i) r.key else row) := by
  rw [lapseStep_some h]
  cases r.queue with
  | nil => simp [row_conditionAll, row_noticeChange, row_setRecord]
  | cons w ws => simp [row_condition, row_conditionAll, row_noticeChange, row_setRecord]

/-- Past the notice of the changed live value, the step leaves the update queue and the channels alone. -/
theorem lapseStep_output (h : s.record i = some r) :
    let r' := r.afterLapse (s.triggerOf r.group)
    let t := (s.setRecord i (some r')).noticeChange r.binding r.live r'.live
    (s.lapseStep i).updateQueue = t.updateQueue ∧ (s.lapseStep i).channels = t.channels := by
  rw [lapseStep_some h]
  cases r.queue <;> exact ⟨rfl, rfl⟩

theorem lapseStep_notice {c : ChannelNo} (h : s.record i = some r) (hbinding : r.binding = some c)
    (hchanged : r.live ≠ (r.afterLapse (s.triggerOf r.group)).live) :
    (s.lapseStep i).updateQueue =
        enqueue { channel := c, kind := .value, value := (r.afterLapse (s.triggerOf r.group)).live } s.updateQueue
      ∧ ((s.lapseStep i).channel c).driven = (r.afterLapse (s.triggerOf r.group)).live := by
  obtain ⟨hqueue, hchannels⟩ := lapseStep_output h
  rw [hbinding, noticeChange_of_bound hchanged] at hqueue hchannels
  refine ⟨hqueue, ?_⟩
  rw [State.channel, hchannels, ← State.channel, channel_notice, if_pos rfl]

theorem lapseStep_quiet (h : s.record i = some r)
    (hquiet : r.binding = none ∨ r.live = (r.afterLapse (s.triggerOf r.group)).live) :
    (s.lapseStep i).updateQueue = s.updateQueue ∧ (s.lapseStep i).channels = s.channels := by
  obtain ⟨hqueue, hchannels⟩ := lapseStep_output h
  rw [noticeChange_of_quiet hquiet] at hqueue hchannels
  exact ⟨hqueue, hchannels⟩

end

/-! ### The obligation -/

/-- Settles O33: the record written is `Record.afterLapse` under the trigger of the record's group, which the policy and
the queue settle field by field; the rest is the notice of its live value and the conditions of the agents. -/
theorem lapseStepAppliesPolicy : Obligations.LapseStepAppliesPolicy := by
  intro s i r hrec
  refine ⟨r.afterLapse (s.triggerOf r.group), by rw [record_lapseStep, if_pos rfl, hrec]; rfl,
    afterLapse_frame r _, fun hsafe => ?toSafe, fun hsafe => ?notToSafe, fun hmarked => ?marked,
    fun hmarked => ?notMarked, fun hqueue => ?noWaiter, fun w ws hqueue => ?waiter,
    fun j hj => by rw [record_lapseStep, if_neg hj], fun c => lapseStep_notice hrec, lapseStep_quiet hrec,
    row_lapseStep hrec⟩
  case toSafe => exact (afterLapse_live r _).trans (lapsePolicy_live_of_toSafe hsafe)
  case notToSafe => exact (afterLapse_live r _).trans (lapsePolicy_live_of_not_toSafe hsafe)
  case marked => exact (afterLapse_safePending r _).trans (lapsePolicy_safePending_of_toPending hmarked)
  case notMarked =>
    exact (afterLapse_safePending r _).trans (lapsePolicy_safePending_of_not_toPending hmarked)
  case noWaiter =>
    rw [afterLapse_of_no_waiter hqueue]
    exact ⟨rfl, (lapsePolicy_queue r _).trans hqueue⟩
  case waiter =>
    rw [afterLapse_of_waiter hqueue]
    exact ⟨rfl, rfl⟩

end Sys2Proof.Machine
end

section
/-! PROOF. An acknowledge that comes late: ignored outside AWAIT_ACK, and decided by order against a due expiry (R152). -/
namespace Sys2Proof.Machine

/-! ### What the acknowledge and the expiry do (R150, R151) -/

theorem exec_acknowledge (s : State) : exec .acknowledge s = .next (acknowledged s) := rfl

section
variable {s : State}

theorem acknowledged_of_awaitAck {f : Update} {n m : Nat} (h : s.link = .awaitAck f n m) :
    acknowledged s =
      { s.setChannel f.channel { (s.channel f.channel) with acked := f.value } with link := .idle } := by
  simp [acknowledged, h]

theorem acknowledged_of_not_awaitAck (h : ∀ f n m, s.link ≠ .awaitAck f n m) : acknowledged s = s := by
  unfold acknowledged
  split
  · next f n m hlink => exact absurd hlink (h f n m)
  · rfl

theorem acknowledged_link_of_awaitAck {f : Update} {n m : Nat} (h : s.link = .awaitAck f n m) :
    (acknowledged s).link = .idle := by
  rw [acknowledged_of_awaitAck h]

theorem acknowledged_acked_of_awaitAck {f : Update} {n m : Nat} (h : s.link = .awaitAck f n m) :
    ((acknowledged s).channel f.channel).acked = f.value := by
  rw [acknowledged_of_awaitAck h]
  exact congrArg Channel.acked (State.channel_setChannel_self s f.channel _)

theorem expireLink_of_not_due (h : ∀ f n, s.link ≠ .awaitAck f n 0) : s.expireLink = s := by
  unfold State.expireLink
  split
  · next f n hlink => exact absurd hlink (h f n)
  · rfl

theorem expireLink_of_attempt_left {f : Update} {n : Nat} (h : s.link = .awaitAck f n 0)
    (hn : n < Config.maxAttempts) : s.expireLink = { s with link := .sending f (n + 1) } := by
  simp [State.expireLink, h, hn]

theorem expireLink_of_last_attempt {f : Update} {n : Nat} (h : s.link = .awaitAck f n 0)
    (hn : ¬ n < Config.maxAttempts) :
    s.expireLink = { s with link := .stalled f, linkStalled := s.linkStalled || (s.row 0).state == .attached } := by
  simp [State.expireLink, h, hn]

/-! ### The one taken first decides (R152) -/

theorem runCommands_acknowledge_expiry (s : State) :
    runCommands [.acknowledge, .acknowledgeTimerExpiry] s = .next (acknowledged s).expireLink := rfl

theorem runCommands_expiry_acknowledge (s : State) :
    runCommands [.acknowledgeTimerExpiry, .acknowledge] s = .next (acknowledged s.expireLink) := rfl

/-- The acknowledge leaves IDLE, where no timer runs. -/
theorem expireLink_acknowledged {f : Update} {n m : Nat} (h : s.link = .awaitAck f n m) :
    (acknowledged s).expireLink = acknowledged s :=
  expireLink_of_not_due fun g k hdue => by
    rw [acknowledged_link_of_awaitAck h] at hdue
    cases hdue

/-- A due expiry leaves SENDING or STALLED, where an acknowledge is ignored. -/
theorem acknowledged_expireLink {f : Update} {n : Nat} (h : s.link = .awaitAck f n 0) :
    acknowledged s.expireLink = s.expireLink :=
  acknowledged_of_not_awaitAck fun g k m hlink => by
    by_cases hn : n < Config.maxAttempts
    · rw [expireLink_of_attempt_left h hn] at hlink
      cases hlink
    · rw [expireLink_of_last_attempt h hn] at hlink
      cases hlink

end

/-! ### The obligation -/

/-- Settles O38: whichever command is taken first leaves AWAIT_ACK, and outside it the other changes nothing. -/
theorem lateAcknowledgeIgnored : Obligations.LateAcknowledgeIgnored := by
  intro s
  refine ⟨fun hlink => ?ignored, fun f n hdue => ⟨⟨acknowledged s, ?acknowledgeFirst, exec_acknowledge s,
    acknowledged_link_of_awaitAck hdue, acknowledged_acked_of_awaitAck hdue⟩,
    fun hn => ?sentAgain, fun hn => ?stalls⟩⟩
  case ignored => rw [exec_acknowledge, acknowledged_of_not_awaitAck hlink]
  case acknowledgeFirst => rw [runCommands_acknowledge_expiry, expireLink_acknowledged hdue]
  case sentAgain =>
    rw [runCommands_expiry_acknowledge, acknowledged_expireLink hdue, expireLink_of_attempt_left hdue hn]
  case stalls =>
    have hlast : ¬ n < Config.maxAttempts := hn.ge.not_gt
    rw [runCommands_expiry_acknowledge, acknowledged_expireLink hdue, expireLink_of_last_attempt hdue hlast]

end Sys2Proof.Machine
end

section
/-! PROOF. The CRC-8 of the frames, and the codes and bytes of response items (R178, R180, R182). -/
namespace Sys2Proof.Machine

/-! ### The register (R182) -/

/-- The bit shifted out is the register's most significant bit. -/
theorem crcShift_eq_msb (r : Byte) : crcShift r = if r.msb then (r <<< 1) ^^^ 0x07 else r <<< 1 := by
  rw [crcShift, BitVec.msb_eq_getLsbD_last]

theorem crcShift_zero : crcShift 0#8 = 0#8 := by decide

/-- A byte equal to the register clears it. -/
theorem crcStep_self (r : Byte) : crcStep r r = 0 := by
  simp only [crcStep, BitVec.xor_self, crcShift_zero]
  rfl

/-! ### Lists of bytes that end in their CRC (R182) -/

theorem crc8_nil : crc8 [] = 0 := rfl

theorem crc8_concat (bs : List Byte) (b : Byte) : crc8 (bs ++ [b]) = crcStep (crc8 bs) b :=
  List.foldl_concat crcStep 0 b bs

theorem crc8_append_crc8 (bs : List Byte) : crc8 (bs ++ [crc8 bs]) = 0 := by
  rw [crc8_concat, crcStep_self]

theorem crc8_of_getLast {frame : List Byte} (hne : frame ≠ [])
    (hcrc : crc8 frame.dropLast = frame.getLast hne) : crc8 frame = 0 := by
  rw [← List.dropLast_append_getLast hne, ← hcrc, crc8_append_crc8]

/-- What a frame of whole bytes that passes the integrity check holds (R162). -/
theorem crc_of_frameFault_none {frame : List Byte} (h : frameFault frame 0 = none) :
    ∃ hne : frame ≠ [], crc8 frame.dropLast = frame.getLast hne := by
  cases frame with
  | nil => simp [frameFault] at h
  | cons len rest =>
    refine ⟨List.cons_ne_nil len rest, ?_⟩
    simp only [frameFault] at h
    split_ifs at h with _ _ hcrc
    rw [not_not] at hcrc
    rw [hcrc, List.getLast?_eq_some_getLast (List.cons_ne_nil len rest), Option.getD_some]

/-- The start marker stands outside the CRC of an update frame (R183). -/
theorem crc8_updateFrame_tail (u : Update) : crc8 ((updateFrame u).drop 1) = 0 :=
  crc8_append_crc8 (kindAndChannel u :: bytes16 u.value)

/-! ### The session flags (R180) -/

theorem flagsByte_eq_add (o l : Bool) : flagsByte o l = (if o then 1 else 0) + (if l then 2 else 0) := by
  cases o <;> cases l <;> rfl

/-! ### The obligation -/

/-- Settles O39: a byte equal to the register clears it, so a list of bytes that ends in its CRC has CRC 0; request
frames that pass the integrity check, and update frames past their start marker, are such lists. The codes and the bytes
of items are read off their definitions. -/
theorem crcOfAFrame : Obligations.CrcOfAFrame := by
  unfold Obligations.CrcOfAFrame
  intro shift
  have hshift : crcShift = shift := funext crcShift_eq_msb
  refine ⟨crc8_nil, ?byteByByte, crc8_append_crc8, ?response, ?request, crc8_updateFrame_tail, ?outcomes, ?records,
    rfl, rfl, rfl, rfl, fun _ m hn => toByte_bit m hn, rfl, ?transmitter, flagsByte_eq_add, ?flag, ?word, ?number,
    ?handle, ?absent⟩
  case byteByByte =>
    intro bs b
    rw [crc8_concat, crcStep, hshift]
  case response => exact fun _ _ _ => rfl
  case request =>
    intro frame hfault
    obtain ⟨hne, hcrc⟩ := crc_of_frameFault_none hfault
    exact crc8_of_getLast hne hcrc
  case outcomes => rfl
  case records => exact ⟨rfl, fun _ => rfl, rfl⟩
  case transmitter => exact ⟨rfl, fun _ _ _ => ⟨rfl, rfl, rfl⟩⟩
  case flag => exact fun _ => rfl
  case word => exact fun _ => rfl
  case number => exact fun _ => rfl
  case handle => exact fun _ => rfl
  case absent => exact fun _ _ => ⟨rfl, fun _ => rfl⟩

end Sys2Proof.Machine
end

section
/-! PROOF. The end of an attempt's frame: the five bytes of the update frame (R183). -/
namespace Sys2Proof.Machine

/-! ### The bytes of an update frame -/

/-- The channel number takes the bits below the kind's bit 7, so the bits of the two are their sum. -/
theorem kindAndChannel_eq_ofNat (u : Update) :
    kindAndChannel u = BitVec.ofNat 8 ((if u.kind = .parked then 128 else 0) + u.channel.val) := by
  have hchannel : u.channel.val < 2 ^ 7 := by omega
  unfold kindAndChannel byteOf
  split
  · have hsum : 2 ^ 7 * 1 + u.channel.val = 2 ^ 7 * 1 ||| u.channel.val :=
      Nat.two_pow_add_eq_or_of_lt hchannel 1
    rw [show 128 + u.channel.val = 128 ||| u.channel.val from hsum, BitVec.ofNat_or]
    rfl
  · rw [Nat.zero_add]
    exact BitVec.zero_or

theorem updateFrame_eq (u : Update) :
    updateFrame u = [0xC3, kindAndChannel u, u.value.extractLsb' 8 8, u.value.extractLsb' 0 8,
      crc8 [kindAndChannel u, u.value.extractLsb' 8 8, u.value.extractLsb' 0 8]] := rfl

/-! ### The end of the frame (R149) -/

theorem exec_frameEnd (s : State) : exec .frameEnd s = .next (endFrame s) := rfl

theorem endFrame_of_sending {s : State} {f : Update} {n : Nat} (h : s.link = .sending f n) :
    endFrame s = { s with link := .awaitAck f n 2, uldat := updateFrame f } := by
  simp [endFrame, h, Config.ackTicks]

/-! ### The obligation -/

/-- Settles O36: the frame recorded is `updateFrame` of the update alone, whatever the attempt, and its second byte is
the sum of the kind's bit and the channel number. -/
theorem attemptSendsFiveBytes : Obligations.AttemptSendsFiveBytes := by
  intro s f n hsending kc hi lo
  have hkc : kindAndChannel f = kc := kindAndChannel_eq_ofNat f
  rw [exec_frameEnd, endFrame_of_sending hsending, updateFrame_eq, hkc]

end Sys2Proof.Machine
end

section
/-! PROOF. What one step can do, said once: the events of a port, the service of a request, and the sorts of commands
(chapter 9, log 3). -/
namespace Sys2Proof.Machine

/-! ### The events of a port (R159 to R172) -/

/-- What one event of a transaction makes of a port: the kind read at the end of a first byte, or the deassertion. -/
inductive Port.Event (ready : Bool) (q : Port) : Port → Prop
  | noted (t : Txn) : Event ready q { q with txn := t }
  | shifted (out : List Byte) : Event ready q { q with sdo := out }
  | submitted (frame : List Byte) (extra : Fin 8) (out : List Byte) :
      Event ready q { submitPort q ready frame extra with txn := .idle, sdo := out }
  | collected (out : List Byte) :
      Event ready q { q with response := none, last := .collected, txn := .idle, sdo := out }
  | reported (last : LastCode) (out : List Byte) : Event ready q { q with last := last, txn := .idle, sdo := out }
  | cancelled (out : List Byte) : Event ready q { cancelPort q with txn := .idle, sdo := out }
  | cleared (out : List Byte) : Event ready q { clearPort q with txn := .idle, sdo := out }

/-- One event of one port; nothing else changes but the model's counter of free values drawn. -/
def State.PortStep (s t : State) : Prop :=
  ∃ (p : PortId) (q : Port) (n : Nat), Port.Event s.readyOut (s.port p) q ∧ t = { s.setPort p q with freeDraws := n }

/-- The events of a port that one transaction command runs. -/
abbrev State.PortSteps : State → State → Prop := Relation.ReflTransGen State.PortStep

theorem portSteps_setPort {s : State} {p : PortId} {q : Port} (h : Port.Event s.readyOut (s.port p) q) :
    s.PortSteps (s.setPort p q) :=
  .single ⟨p, q, s.freeDraws, h, rfl⟩

theorem portSteps_setTxn (s : State) (p : PortId) (t : Txn) : s.PortSteps (s.setTxn p t) :=
  portSteps_setPort (.noted t)

theorem firstByte_portSteps (p : PortId) (first : Byte) (s : State) : s.PortSteps (firstByte p first s) := by
  unfold firstByte
  split
  · exact .refl
  · split
    · exact portSteps_setTxn s p _
    · exact .refl

theorem transaction_portSteps {p : PortId} {act : Txn → State → State} (hact : ∀ t u, State.PortSteps u (act t u))
    (first : Byte) (n : Nat) (s : State) : s.PortSteps (transaction p first n act s) := by
  unfold transaction
  split
  · exact .single ⟨p, _, _, .shifted _, rfl⟩
  · exact (firstByte_portSteps p first s).trans (hact _ _)

theorem submitEnd_portSteps (p : PortId) (frame : List Byte) (extra : Fin 8) (t : Txn) (s : State) :
    s.PortSteps (submitEnd p frame extra t s) := by
  unfold submitEnd
  split
  · exact portSteps_setPort (.submitted frame extra _)
  · exact .refl

theorem collectEnd_portSteps (p : PortId) (n : Nat) (t : Txn) (s : State) : s.PortSteps (collectEnd p n t s) := by
  unfold collectEnd
  split
  · split
    · exact portSteps_setPort (.collected _)
    · exact portSteps_setPort (.reported _ _)
  · exact portSteps_setPort (.reported _ _)
  · exact .refl

theorem statusEnd_portSteps (p : PortId) (n : Nat) (t : Txn) (s : State) : s.PortSteps (statusEnd p n t s) := by
  unfold statusEnd
  split
  · exact portSteps_setPort (.reported _ _)
  · exact .refl

theorem cancelEnd_portSteps (p : PortId) (n : Nat) (t : Txn) (s : State) : s.PortSteps (cancelEnd p n t s) := by
  unfold cancelEnd
  split
  · exact portSteps_setPort (.cancelled _)
  · exact .refl

theorem resetEnd_portSteps (p : PortId) (n : Nat) (t : Txn) (s : State) : s.PortSteps (resetEnd p n t s) := by
  unfold resetEnd
  split
  · exact portSteps_setPort (.cleared _)
  · exact .refl

theorem unknownEnd_portSteps (p : PortId) (n : Nat) (t : Txn) (s : State) : s.PortSteps (unknownEnd p n t s) := by
  unfold unknownEnd
  split
  · exact portSteps_setPort (.reported _ _)
  · exact .refl

theorem portSteps_rearm (p : PortId) (s : State) : s.PortSteps (rearm p s) := by
  unfold rearm
  split
  · exact portSteps_setTxn s p _
  · exact .refl

/-! ### The sorts of commands -/

/-- The commands that are neither a port's nor a request: internal work, timers, strobes, the update link, start-up. -/
inductive OwnCommand : Instr → Prop
  | lapseItem : OwnCommand .lapseItem
  | sweepStart : OwnCommand .sweepStart
  | sweepStep : OwnCommand .sweepStep
  | tick (e : Expiries) : OwnCommand (.tick e)
  | keepaliveExpiry (a : Agent) : OwnCommand (.keepaliveExpiry a)
  | periodExpiry (g : GroupNo) : OwnCommand (.periodExpiry g)
  | applyStrobeEdge (n : StrobeNo) : OwnCommand (.applyStrobeEdge n)
  | strobeFallingEdge (n : StrobeNo) : OwnCommand (.strobeFallingEdge n)
  | takeIntoFlight : OwnCommand .takeIntoFlight
  | frameEnd : OwnCommand .frameEnd
  | acknowledge : OwnCommand .acknowledge
  | acknowledgeTimerExpiry : OwnCommand .acknowledgeTimerExpiry
  | nrstAssert : OwnCommand .nrstAssert
  | nrstRelease (low0 low1 : Bool) : OwnCommand (.nrstRelease low0 low1)
  | readyRise (levels : FinSet 4) : OwnCommand (.readyRise levels)

/-- What a command is: an event of a port, a request of an assigned or an unassigned kind, or the part's own. -/
inductive CommandSort (c : Instr) : Prop
  | port (h : ∀ s, ∃ t, exec c s = .next t ∧ s.PortSteps t)
  | request (k : ReqKind) (p : PortId) (x : Extent) (h : c = requestInstr k p x)
  | unknown (p : PortId) (x : Extent) (h : c = .unknownKind p x)
  | own (h : OwnCommand c)

theorem commandSort (c : Instr) : CommandSort c := by
  cases c with
  | submit p frame extra =>
    exact .port fun s => ⟨_, rfl, transaction_portSteps (submitEnd_portSteps p frame extra) _ _ s⟩
  | collect p bits => exact .port fun s => ⟨_, rfl, transaction_portSteps (collectEnd_portSteps p _) _ _ s⟩
  | status p bits => exact .port fun s => ⟨_, rfl, transaction_portSteps (statusEnd_portSteps p _) _ _ s⟩
  | cancel p bits => exact .port fun s => ⟨_, rfl, transaction_portSteps (cancelEnd_portSteps p _) _ _ s⟩
  | resetPort p bits => exact .port fun s => ⟨_, rfl, transaction_portSteps (resetEnd_portSteps p _) _ _ s⟩
  | unknownTransaction p first bits =>
    refine .port fun s => ⟨_, rfl, ?_⟩
    split
    · exact .refl
    · exact transaction_portSteps (unknownEnd_portSteps p _) _ _ s
  | endOfFirstByte p first => exact .port fun s => ⟨_, rfl, firstByte_portSteps p first s⟩
  | noCompleteFirstByte p edges => exact .port fun s => ⟨s, rfl, .refl⟩
  | ignoredAssertionAtRelease p => exact .port fun s => ⟨_, rfl, portSteps_rearm p s⟩
  | unknownKind p x => exact .unknown p x rfl
  | attach p x => exact .request .attach p x rfl
  | detach p x => exact .request .detach p x rfl
  | keepalive p x => exact .request .keepalive p x rfl
  | queryAgent p x => exact .request .queryAgent p x rfl
  | restart p x => exact .request .restart p x rfl
  | setRights p x => exact .request .setRights p x rfl
  | create p x => exact .request .create p x rfl
  | retire p x => exact .request .retire p x rfl
  | lookup p x => exact .request .lookup p x rfl
  | read p x => exact .request .read p x rfl
  | enumerate p x => exact .request .enumerate p x rfl
  | claim p x => exact .request .claim p x rfl
  | release p x => exact .request .release p x rfl
  | cancelClaim p x => exact .request .cancelClaim p x rfl
  | revoke p x => exact .request .revoke p x rfl
  | restore p x => exact .request .restore p x rfl
  | stage p x => exact .request .stage p x rfl
  | unstage p x => exact .request .unstage p x rfl
  | tune p x => exact .request .tune p x rfl
  | apply p x => exact .request .apply p x rfl
  | setGroup p x => exact .request .setGroup p x rfl
  | queryGroup p x => exact .request .queryGroup p x rfl
  | watch p x => exact .request .watch p x rfl
  | unwatch p x => exact .request .unwatch p x rfl
  | fetchAttention p x => exact .request .fetchAttention p x rfl
  | bind p x => exact .request .bind p x rfl
  | unbind p x => exact .request .unbind p x rfl
  | setPark p x => exact .request .setPark p x rfl
  | queryChannel p x => exact .request .queryChannel p x rfl
  | linkResume p x => exact .request .linkResume p x rfl
  | lapseItem => exact .own .lapseItem
  | sweepStart => exact .own .sweepStart
  | sweepStep => exact .own .sweepStep
  | tick e => exact .own (.tick e)
  | keepaliveExpiry a => exact .own (.keepaliveExpiry a)
  | periodExpiry g => exact .own (.periodExpiry g)
  | applyStrobeEdge n => exact .own (.applyStrobeEdge n)
  | strobeFallingEdge n => exact .own (.strobeFallingEdge n)
  | takeIntoFlight => exact .own .takeIntoFlight
  | frameEnd => exact .own .frameEnd
  | acknowledge => exact .own .acknowledge
  | acknowledgeTimerExpiry => exact .own .acknowledgeTimerExpiry
  | nrstAssert => exact .own .nrstAssert
  | nrstRelease low0 low1 => exact .own (.nrstRelease low0 low1)
  | readyRise levels => exact .own (.readyRise levels)

/-! ### The service of a frame (R163 to R165, log 3) -/

section
variable {isKind : Byte → Bool} {act : List Byte → State → Answer} {p : PortId} {x : Extent} {s : State}

theorem offers_of_grantedFrame {f : List Byte} (h : s.grantedFrame p = some f) : s.Offers p f (frameKind f) := by
  unfold State.grantedFrame at h
  split at h
  · next hgrant =>
    split at h
    · next g hreq => cases h; exact ⟨hgrant, hreq, rfl⟩
    · cases h
  · cases h

/-- The service of a frame finds no request to serve, or takes one that the arbiter grants, or takes and delivers it, or
delivers the response that the engine holds. -/
theorem serveFrame_cases (isKind : Byte → Bool) (act : List Byte → State → Answer) (p : PortId) (x : Extent)
    (s : State) :
    serveFrame isKind act p x s = s
      ∨ (∃ f, s.Offers p f (frameKind f) ∧ isKind (frameKind f) = true
          ∧ (serveFrame isKind act p x s = takeRequest act p f s
            ∨ serveFrame isKind act p x s = wholeRequest act p f s))
      ∨ ∃ c resp, s.engine = .busy p c resp ∧ isKind c = true ∧ serveFrame isKind act p x s = s.deliverTo p resp := by
  cases x with
  | finish =>
    simp only [serveFrame, finishRequest]
    split
    · exact .inl rfl
    · next q c resp hbusy =>
      split
      · next hfor => obtain ⟨rfl, hkind⟩ := hfor; exact .inr (.inr ⟨c, resp, hbusy, hkind, rfl⟩)
      · exact .inl rfl
  | take =>
    simp only [serveFrame]
    split
    · exact .inl rfl
    · next f hf =>
      split
      · next hkind => exact .inr (.inl ⟨f, offers_of_grantedFrame hf, hkind, .inl rfl⟩)
      · exact .inl rfl
  | whole =>
    simp only [serveFrame]
    split
    · exact .inl rfl
    · next f hf =>
      split
      · next hkind => exact .inr (.inl ⟨f, offers_of_grantedFrame hf, hkind, .inr rfl⟩)
      · exact .inl rfl

end

/-! ### The admission of an offered request (R36 to R39) -/

/-- An admission refuses the request as taken, or renews the session and refuses it, or hands it on to the kind's own
checks: ATTACH as taken, any other kind admitted and renewed. -/
theorem admission_cases {k : ReqKind} {p : PortId} {f : List Byte} {s : State} (h : s.Offers p f k.code)
    (carry : Request → State → Answer) :
    (∃ o, admission k carry p f (s.takeFrom p) = refuse (s.takeFrom p) o)
      ∨ (∃ a : Agent, (frameAgent f).toNat = a.val ∧ (s.row a).state = .attached
          ∧ ∃ o, admission k carry p f (s.takeFrom p) = refuse (s.begun p a) o)
      ∨ (∃ a : Agent, k = .attach ∧ admission k carry p f (s.takeFrom p) = carry (requestOf f a p 0) (s.takeFrom p))
      ∨ ∃ a : Agent, s.Admits p k f a
          ∧ admission k carry p f (s.takeFrom p) = carry (requestOf f a p (s.ticksLeft a)) (s.begun p a) := by
  cases hagent : finOf 8 (frameAgent f) with
  | none => exact .inl ⟨.badField, by simp only [admission, hagent]⟩
  | some a =>
    have hval := finOf_eq_some.1 hagent
    by_cases hattach : k = .attach
    · exact .inr (.inr (.inl ⟨a, hattach, by simp only [admission, hagent, if_pos hattach]⟩))
    cases hrefusal : sessionRefusal (s.row a) (frameEpoch f) p with
    | some o =>
      exact .inl ⟨o, by simp only [admission, hagent, if_neg hattach, State.row_takeFrom, hrefusal]⟩
    | none =>
      obtain ⟨hstate, hepoch, hport⟩ : (s.row a).state = .attached ∧ frameEpoch f = (s.row a).epoch
          ∧ (s.row a).port = some p := by
        unfold sessionRefusal at hrefusal
        split at hrefusal
        · cases hrefusal
        · cases hrefusal
        · next hstate => split_ifs at hrefusal with he hp; exact ⟨hstate, not_not.1 he, not_not.1 hp⟩
      by_cases hsup : k.supervisorOnly = true ∧ a ≠ 0
      · refine .inr (.inl ⟨a, hval, hstate, .noRight, ?_⟩)
        have : (k.supervisorOnly && a != 0) = true := by simpa using hsup
        simp only [admission, hagent, if_neg hattach, State.row_takeFrom, hrefusal, this, if_true]
        rfl
      · have hadm : s.Admits p k f a :=
          ⟨h, hval, hattach, hstate, hepoch, hport, fun hk => by_contra fun ha => hsup ⟨hk, ha⟩⟩
        exact .inr (.inr (.inr ⟨a, hadm, admission_of_admits hadm carry⟩))

/-! ### The tables behind the ports -/

/-- The state but for the ports with the arbiter and the engine, the records of output pins and APPLY levels, and what
is the model's own. -/
structure State.SameTables (s t : State) : Prop where
  phase : t.phase = s.phase
  slots : t.slots = s.slots
  keyIndex : t.keyIndex = s.keyIndex
  freeList : t.freeList = s.freeList
  rights : t.rights = s.rights
  agents : t.agents = s.agents
  linkStalled : t.linkStalled = s.linkStalled
  lostAgents : t.lostAgents = s.lostAgents
  groups : t.groups = s.groups
  sweep : t.sweep = s.sweep
  channels : t.channels = s.channels
  updateQueue : t.updateQueue = s.updateQueue
  link : t.link = s.link

namespace State.SameTables
variable {s t u : State}

theorem refl (s : State) : s.SameTables s := ⟨rfl, rfl, rfl, rfl, rfl, rfl, rfl, rfl, rfl, rfl, rfl, rfl, rfl⟩
theorem trans (h : s.SameTables t) (g : t.SameTables u) : s.SameTables u :=
  ⟨g.1.trans h.1, g.2.trans h.2, g.3.trans h.3, g.4.trans h.4, g.5.trans h.5, g.6.trans h.6, g.7.trans h.7,
    g.8.trans h.8, g.9.trans h.9, g.10.trans h.10, g.11.trans h.11, g.12.trans h.12, g.13.trans h.13⟩
theorem takeFrom (s : State) (p : PortId) : s.SameTables (s.takeFrom p) :=
  ⟨rfl, rfl, rfl, rfl, rfl, rfl, rfl, rfl, rfl, rfl, rfl, rfl, rfl⟩
theorem deliverTo (s : State) (p : PortId) (resp : List Byte) : s.SameTables (s.deliverTo p resp) :=
  ⟨rfl, rfl, rfl, rfl, rfl, rfl, rfl, rfl, rfl, rfl, rfl, rfl, rfl⟩
theorem setEngine (s : State) (e : Engine) : s.SameTables { s with engine := e } :=
  ⟨rfl, rfl, rfl, rfl, rfl, rfl, rfl, rfl, rfl, rfl, rfl, rfl, rfl⟩
theorem grantInternal (s : State) : s.SameTables s.grantInternal :=
  ⟨rfl, rfl, rfl, rfl, rfl, rfl, rfl, rfl, rfl, rfl, rfl, rfl, rfl⟩

theorem portStep (h : s.PortStep t) : s.SameTables t := by
  obtain ⟨p, q, n, -, rfl⟩ := h
  exact ⟨rfl, rfl, rfl, rfl, rfl, rfl, rfl, rfl, rfl, rfl, rfl, rfl, rfl⟩

theorem portSteps (h : s.PortSteps t) : s.SameTables t := by
  induction h with
  | refl => exact refl s
  | tail _ hstep ih => exact ih.trans (portStep hstep)

end State.SameTables

/-- What one command does to the tables: nothing; or, when it is a request that the arbiter grants, what the request's
admission does; or what the part's own command does. -/
theorem exec_tables {c : Instr} {s t : State} (h : exec c s = .next t) :
    s.SameTables t
      ∨ (∃ k p x f, c = requestInstr k p x ∧ s.Offers p f k.code
          ∧ (admission k (carryOf k) p f (s.takeFrom p)).st.SameTables t)
      ∨ OwnCommand c := by
  cases commandSort c with
  | port hport =>
    obtain ⟨u, hu, hsteps⟩ := hport s
    obtain rfl : u = t := by rw [h] at hu; cases hu; rfl
    exact .inl (.portSteps hsteps)
  | request k p x hc =>
    subst hc
    rw [exec_requestInstr] at h
    injection h with h
    subst h
    rcases serveFrame_cases (fun b => b == k.code) (admission k (carryOf k) p) p x s with
      hs | ⟨f, hoffers, hkind, hs⟩ | ⟨c, resp, -, -, hs⟩
    · rw [serve, hs]; exact .inl (.refl s)
    · have hcode : frameKind f = k.code := by simpa using hkind
      refine .inr (.inl ⟨k, p, x, f, rfl, hcode ▸ hoffers, ?_⟩)
      rcases hs with hs | hs
      · rw [serve, hs]; exact .setEngine _ _
      · rw [serve, hs]; exact .deliverTo _ _ _
    · rw [serve, hs]; exact .inl (.deliverTo s p resp)
  | unknown p x hc =>
    subst hc
    rw [exec_unknownKind] at h
    injection h with h
    subst h
    rcases serveFrame_cases (fun b => !codeAssigned b) (fun _ t => refuse t .unknownKind) p x s with
      hs | ⟨f, -, -, hs | hs⟩ | ⟨c, resp, -, -, hs⟩
    · rw [hs]; exact .inl (.refl s)
    · rw [hs]; exact .inl ((State.SameTables.takeFrom s p).trans (.setEngine _ _))
    · rw [hs]; exact .inl ((State.SameTables.takeFrom s p).trans (.deliverTo _ _ _))
    · rw [hs]; exact .inl (.deliverTo s p resp)
  | own hown => exact .inr (.inr hown)

end Sys2Proof.Machine
end

section
/-! PROOF. Every command answers a next state, a step runs the command in front, and every step keeps the law of the
ports (R158). -/
namespace Sys2Proof.Machine

/-! ### What the events of a port leave alone -/

theorem portSteps_frame {s t : State} (h : s.PortSteps t) : t = { s with ports := t.ports, freeDraws := t.freeDraws } := by
  induction h with
  | refl => rfl
  | tail _ hstep ih =>
    obtain ⟨p, q, n, -, rfl⟩ := hstep
    exact congrArg (fun u => { State.setPort u p q with freeDraws := n }) ih

/-! ### What the part's own commands leave alone -/

theorem visit_sameFront (s : State) (i : SlotNo) (r : Record) : s.SameFront (s.visit i r) := by
  unfold State.visit
  split
  · exact .refl s
  · exact ((State.SameFront.refl s).setRecord _ _).liveChanged _ _ _ _

/-- A sweep step is outside the ports, the engine and the commands waiting. -/
theorem sweepOnce_front (s : State) (w : Sweep) :
    (s.sweepOnce w).ports = s.ports ∧ (s.sweepOnce w).engine = s.engine ∧ (s.sweepOnce w).pending = s.pending := by
  unfold State.sweepOnce
  split
  · exact ⟨rfl, rfl, rfl⟩
  · next i _ =>
    split
    · exact ⟨rfl, rfl, rfl⟩
    · next r _ =>
      have hvisit := visit_sameFront s i r
      exact ⟨hvisit.ports, hvisit.engine, hvisit.pending⟩

theorem expireAll_front (s : State) :
    s.expireAll.ports = s.ports ∧ s.expireAll.engine = s.engine ∧ s.expireAll.pending = s.pending := by
  unfold State.expireAll
  rw [expireLink_eq]
  exact ⟨rfl, rfl, rfl⟩

/-- The part's own commands other than the assertion and the release of nRST are outside the ports, the engine and the
commands waiting; so is the assertion outside the commands waiting, and the release outside all but the ports. -/
theorem exec_own_front {c : Instr} (hown : OwnCommand c) (s : State) :
    ∃ t, exec c s = .next t ∧ t.pending = s.pending
      ∧ ((t.ports = s.ports ∧ t.engine = s.engine) ∨ t = resetAssert s ∨ ∃ low0 low1, t = resetRelease low0 low1 s) := by
  cases hown with
  | lapseItem =>
    refine ⟨lapseWork s, rfl, ?_⟩
    unfold lapseWork
    split
    · split
      · exact ⟨rfl, .inl ⟨rfl, rfl⟩⟩
      · next a _ =>
        have hlapse := (State.SameFront.refl s.grantInternal).lapseAgent a
        exact ⟨hlapse.pending, .inl ⟨hlapse.ports, hlapse.engine⟩⟩
    · exact ⟨rfl, .inl ⟨rfl, rfl⟩⟩
  | sweepStart =>
    refine ⟨sweepStartWork s, rfl, ?_⟩
    unfold sweepStartWork
    repeat' split
    all_goals exact ⟨rfl, .inl ⟨rfl, rfl⟩⟩
  | sweepStep =>
    refine ⟨sweepStepWork s, rfl, ?_⟩
    unfold sweepStepWork
    split
    · split
      · exact ⟨rfl, .inl ⟨rfl, rfl⟩⟩
      · next w _ =>
        obtain ⟨hports, hengine, hpending⟩ := sweepOnce_front s.grantInternal w
        exact ⟨hpending, .inl ⟨hports, hengine⟩⟩
    · exact ⟨rfl, .inl ⟨rfl, rfl⟩⟩
  | tick e =>
    refine ⟨ticked e s, rfl, ?_⟩
    obtain ⟨hports, hengine, hpending⟩ := expireAll_front s
    obtain ⟨hports', hengine', hpending'⟩ := expireAll_front s.expireAll.countDown
    unfold ticked
    split
    · cases e
      · exact ⟨hpending'.trans hpending, .inl ⟨hports'.trans hports, hengine'.trans hengine⟩⟩
      · exact ⟨hpending, .inl ⟨hports, hengine⟩⟩
    · exact ⟨rfl, .inl ⟨rfl, rfl⟩⟩
  | keepaliveExpiry a => exact ⟨_, rfl, rfl, .inl ⟨rfl, rfl⟩⟩
  | periodExpiry g => exact ⟨_, rfl, rfl, .inl ⟨rfl, rfl⟩⟩
  | applyStrobeEdge n =>
    refine ⟨strobeRise n s, rfl, ?_⟩
    unfold strobeRise
    split <;> exact ⟨rfl, .inl ⟨rfl, rfl⟩⟩
  | strobeFallingEdge n =>
    refine ⟨strobeFall n s, rfl, ?_⟩
    unfold strobeFall
    split <;> exact ⟨rfl, .inl ⟨rfl, rfl⟩⟩
  | takeIntoFlight =>
    refine ⟨takeHead s, rfl, ?_⟩
    unfold takeHead
    repeat' split
    all_goals exact ⟨rfl, .inl ⟨rfl, rfl⟩⟩
  | frameEnd =>
    refine ⟨endFrame s, rfl, ?_⟩
    unfold endFrame
    split <;> exact ⟨rfl, .inl ⟨rfl, rfl⟩⟩
  | acknowledge =>
    refine ⟨acknowledged s, rfl, ?_⟩
    unfold acknowledged
    split <;> exact ⟨rfl, .inl ⟨rfl, rfl⟩⟩
  | acknowledgeTimerExpiry =>
    refine ⟨s.expireLink, rfl, ?_⟩
    rw [expireLink_eq]
    exact ⟨rfl, .inl ⟨rfl, rfl⟩⟩
  | nrstAssert => exact ⟨_, rfl, rfl, .inr (.inl rfl)⟩
  | nrstRelease low0 low1 =>
    refine ⟨_, rfl, ?_, .inr (.inr ⟨low0, low1, rfl⟩)⟩
    unfold resetRelease
    split <;> rfl
  | readyRise levels =>
    refine ⟨readyRise levels s, rfl, ?_⟩
    unfold readyRise
    split <;> exact ⟨rfl, .inl ⟨rfl, rfl⟩⟩

/-! ### The service of a frame, seen from the ports -/

/-- What serves a frame: an execution that leaves the ports and the engine to the take and the delivery. -/
def LeavesFront (act : List Byte → State → Answer) : Prop := ∀ (f : List Byte) (s : State), s.SameFront (act f s).st

theorem leavesFront_admission (k : ReqKind) (p : PortId) : LeavesFront (admission k (carryOf k) p) :=
  admission_sameFront k p

theorem leavesFront_unknownKind : LeavesFront fun _ t => refuse t .unknownKind :=
  fun _ s => State.SameFront.refl s

theorem serveFrame_pending {act : List Byte → State → Answer} (hact : LeavesFront act) (isKind : Byte → Bool)
    (p : PortId) (x : Extent) (s : State) : (serveFrame isKind act p x s).pending = s.pending := by
  rcases serveFrame_cases isKind act p x s with hs | ⟨f, -, -, hs | hs⟩ | ⟨c, resp, -, -, hs⟩
  · rw [hs]
  · rw [hs]; exact (hact f (s.takeFrom p)).pending
  · rw [hs]; exact (hact f (s.takeFrom p)).pending
  · rw [hs]; rfl

/-! ### The law of the ports (R158) -/

/-- The law of R158 on one port, but for the engine's side. -/
def Port.Law (q : Port) : Prop :=
  (q.request ≠ .empty → q.response = none) ∧ (q.orphan = true → q.request = .taken)

theorem portLaw_iff {s : State} : s.PortLaw ↔
    ∀ p, (s.port p).Law ∧ ((s.port p).request = .taken ↔ ∃ c resp, s.engine = .busy p c resp) :=
  forall_congr' fun _ => and_assoc.symm

theorem portCond_cases (q : Port) :
    (q.cond = .empty ∧ q.request = .empty ∧ q.response = none)
      ∨ (q.cond = .responseWaiting ∧ q.request = .empty ∧ q.response.isSome = true)
      ∨ (q.cond = .submitted ∧ ∃ f, q.request = .submitted f)
      ∨ (q.cond = .taken ∧ q.request = .taken ∧ q.orphan = false)
      ∨ (q.cond = .orphaned ∧ q.request = .taken ∧ q.orphan = true) := by
  unfold Port.cond
  cases q.request with
  | empty => cases q.response <;> simp
  | submitted f => simp
  | taken => cases q.orphan <;> simp

theorem request_of_cond_submitted {q : Port} (h : q.cond = .submitted) : ∃ f, q.request = .submitted f := by
  rcases portCond_cases q with ⟨hc, -⟩ | ⟨hc, -⟩ | ⟨-, h⟩ | ⟨hc, -⟩ | ⟨hc, -⟩
  case inr.inr.inl => exact h
  all_goals rw [h] at hc; cases hc

theorem cond_of_request_submitted {q : Port} {f : List Byte} (h : q.request = .submitted f) : q.cond = .submitted := by
  simp only [Port.cond, h]

theorem cancelPort_of_submitted {q : Port} (h : q.cond = .submitted) :
    cancelPort q = { q with request := .empty, last := .cancelled } := by
  simp only [cancelPort, h]

theorem cancelPort_of_not_submitted {q : Port} (h : q.cond ≠ .submitted) :
    ∃ last, cancelPort q = { q with last := last } := by
  unfold cancelPort
  split
  · next hc => exact absurd hc h
  all_goals exact ⟨_, rfl⟩

/-- A RESET_PORT by what the buffers hold (R170): on a taken request it sets the mark, set or not. -/
theorem clearPort_cases (q : Port) :
    ((∃ f, q.request = .submitted f) ∧ clearPort q = { q with request := .empty, last := .portReset })
      ∨ (q.request = .taken ∧ clearPort q = { q with orphan := true, last := .portReset })
      ∨ ((q.request = .empty ∧ q.response.isSome = true)
          ∧ clearPort q = { q with response := none, last := .portReset })
      ∨ (q.request = .empty ∧ q.response = none ∧ clearPort q = { q with last := .portReset }) := by
  rcases portCond_cases q with ⟨hc, hreq, hresp⟩ | ⟨hc, h⟩ | ⟨hc, h⟩ | ⟨hc, hreq, -⟩ | ⟨hc, hreq, ho⟩
  · exact .inr (.inr (.inr ⟨hreq, hresp, by simp only [clearPort, hc]⟩))
  · exact .inr (.inr (.inl ⟨h, by simp only [clearPort, hc]⟩))
  · exact .inl ⟨h, by simp only [clearPort, hc]⟩
  · exact .inr (.inl ⟨hreq, by simp only [clearPort, hc]⟩)
  · exact .inr (.inl ⟨hreq, by simp only [clearPort, hc, ← ho]⟩)

/-- A transaction never makes or ends a taken request, and keeps the port's own law. -/
theorem portEvent_law {ready : Bool} {q q' : Port} (h : Port.Event ready q q') (hlaw : q.Law) :
    q'.Law ∧ (q'.request = .taken ↔ q.request = .taken) := by
  obtain ⟨hresponse, horphan⟩ := hlaw
  cases h with
  | noted | shifted | reported => exact ⟨⟨hresponse, horphan⟩, .rfl⟩
  | collected => exact ⟨⟨fun _ => rfl, horphan⟩, .rfl⟩
  | submitted frame extra out =>
    unfold submitPort
    split
    · exact ⟨⟨hresponse, horphan⟩, .rfl⟩
    · split
      · exact ⟨⟨hresponse, horphan⟩, .rfl⟩
      · split
        · next hempty =>
          obtain ⟨hreq, hresp⟩ : q.request = .empty ∧ q.response = none := by
            rcases portCond_cases q with h | h | h | h | h <;> simp_all
          refine ⟨⟨fun _ => hresp, fun ho => ?_⟩, by simp [hreq]⟩
          have := horphan ho
          simp [hreq] at this
        · exact ⟨⟨hresponse, horphan⟩, .rfl⟩
  | cancelled out =>
    by_cases hc : q.cond = .submitted
    · obtain ⟨f, hreq⟩ := request_of_cond_submitted hc
      have hfree : q.orphan ≠ true := fun ho => by cases hreq.symm.trans (horphan ho)
      rw [cancelPort_of_submitted hc]
      exact ⟨⟨fun h => absurd rfl h, fun ho => absurd ho hfree⟩, by simp [hreq]⟩
    · obtain ⟨last, hlast⟩ := cancelPort_of_not_submitted hc
      rw [hlast]
      exact ⟨⟨hresponse, horphan⟩, .rfl⟩
  | cleared out =>
    rcases clearPort_cases q with ⟨⟨f, hreq⟩, hq⟩ | ⟨hreq, hq⟩ | ⟨-, hq⟩ | ⟨-, -, hq⟩
    · have hfree : q.orphan ≠ true := fun ho => by cases hreq.symm.trans (horphan ho)
      rw [hq]
      exact ⟨⟨fun h => absurd rfl h, fun ho => absurd ho hfree⟩, by simp [hreq]⟩
    · rw [hq]
      exact ⟨⟨hresponse, fun _ => hreq⟩, .rfl⟩
    · rw [hq]
      exact ⟨⟨fun _ => rfl, horphan⟩, .rfl⟩
    · rw [hq]
      exact ⟨⟨hresponse, horphan⟩, .rfl⟩

theorem State.PortLaw.congr {s t : State} (h : s.PortLaw) (hports : t.ports = s.ports) (hengine : t.engine = s.engine) :
    t.PortLaw := by
  intro p
  have hport : t.port p = s.port p := by rw [State.port, hports, State.port]
  rw [hport, hengine]
  exact h p

theorem State.PortLaw.portStep {s t : State} (h : s.PortLaw) (hstep : s.PortStep t) : t.PortLaw := by
  obtain ⟨p, q, n, hevent, rfl⟩ := hstep
  obtain ⟨hlaw, htaken⟩ := portEvent_law hevent (portLaw_iff.1 h p).1
  refine portLaw_iff.2 fun j => ?_
  by_cases hj : p = j
  · subst hj
    have hport : State.port { s.setPort p q with freeDraws := n } p = q := State.port_setPort_self s p q
    rw [hport]
    exact ⟨hlaw, htaken.trans (portLaw_iff.1 h p).2⟩
  · have hport : State.port { s.setPort p q with freeDraws := n } j = s.port j := State.port_setPort_ne s q hj
    rw [hport]
    exact portLaw_iff.1 h j

theorem State.PortLaw.portSteps {s t : State} (h : s.PortLaw) (hsteps : s.PortSteps t) : t.PortLaw := by
  induction hsteps with
  | refl => exact h
  | tail _ hstep ih => exact ih.portStep hstep

/-- While the engine is free no request is taken; a take makes the one port's request taken and the engine busy with
it. -/
theorem State.PortLaw.taken {s u : State} {p : PortId} {f : List Byte} {b : Byte} (h : s.PortLaw)
    (hoffers : s.Offers p f b) (hu : (s.takeFrom p).SameFront u) (c : Byte) (resp : List Byte) :
    State.PortLaw { u with engine := .busy p c resp } := by
  have hfree := hoffers.phase.2
  refine portLaw_iff.2 fun j => ?_
  have hport : State.port { u with engine := .busy p c resp } j = (s.takeFrom p).port j := by
    show u.port j = _
    rw [State.port, hu.ports, State.port]
  rw [hport]
  obtain ⟨⟨hresponse, horphan⟩, htaken⟩ := portLaw_iff.1 h j
  by_cases hj : p = j
  · subst hj
    rw [State.port_takeFrom_self]
    refine ⟨⟨fun _ => hresponse (by simp [hoffers.submitted]), fun _ => rfl⟩, by simp⟩
  · have hsame : (s.takeFrom p).port j = s.port j := State.port_setPort_ne s _ hj
    rw [hsame]
    refine ⟨⟨hresponse, horphan⟩, htaken.trans ?_⟩
    simp [hfree, hj]

/-- A delivery frees the port and the engine. -/
theorem State.PortLaw.delivered {s : State} {p : PortId} (h : s.PortLaw)
    (hothers : ∀ j, p ≠ j → (s.port j).request ≠ .taken) (resp : List Byte) : (s.deliverTo p resp).PortLaw := by
  refine portLaw_iff.2 fun j => ?_
  by_cases hj : p = j
  · subst hj
    have hport : (s.deliverTo p resp).port p = { (s.port p) with
        request := .empty, orphan := false
        response := if (s.port p).orphan then (s.port p).response else some resp } := State.port_setPort_self s p _
    rw [hport]
    refine ⟨⟨fun h => absurd rfl h, fun h => by cases h⟩, by simp⟩
  · have hport : (s.deliverTo p resp).port j = s.port j := State.port_setPort_ne s _ hj
    rw [hport]
    exact ⟨(portLaw_iff.1 h j).1, by simp [hothers j hj]⟩

theorem State.PortLaw.not_taken_of_busy {s : State} {p j : PortId} {c : Byte} {resp : List Byte} (h : s.PortLaw)
    (hbusy : s.engine = .busy p c resp) (hj : p ≠ j) : (s.port j).request ≠ .taken := by
  intro htaken
  obtain ⟨c', resp', hbusy'⟩ := (portLaw_iff.1 h j).2.1 htaken
  rw [hbusy] at hbusy'
  cases hbusy'
  exact hj rfl

theorem State.PortLaw.serveFrame {act : List Byte → State → Answer} (hact : LeavesFront act) {s : State}
    (h : s.PortLaw) (isKind : Byte → Bool) (p : PortId) (x : Extent) : (serveFrame isKind act p x s).PortLaw := by
  rcases serveFrame_cases isKind act p x s with hs | ⟨f, hoffers, -, hs | hs⟩ | ⟨c, resp, hbusy, -, hs⟩
  · rw [hs]; exact h
  · rw [hs]; exact h.taken hoffers (hact f (s.takeFrom p)) _ _
  · have hbusy := h.taken hoffers (hact f (s.takeFrom p)) (frameKind f)
      (responseFrame (frameTag f) (act f (s.takeFrom p)).outcome (act f (s.takeFrom p)).body)
    rw [hs]
    exact hbusy.delivered (fun j => hbusy.not_taken_of_busy rfl) _
  · rw [hs]; exact h.delivered (fun j => h.not_taken_of_busy hbusy) resp

theorem portLaw_resetAssert (s : State) : (resetAssert s).PortLaw := by
  intro p
  have hport : (resetAssert s).port p = Port.powerOn := Tab.get_replicate _ p
  have hengine : (resetAssert s).engine = .free := rfl
  simp [hport, hengine, Port.powerOn]

theorem resetRelease_portSteps (low0 low1 : Bool) (s : State) :
    ∃ u, s.PortSteps u ∧ (resetRelease low0 low1 s).ports = u.ports ∧ (resetRelease low0 low1 s).engine = u.engine := by
  unfold resetRelease
  split
  · refine ⟨_, (portSteps_setTxn s 0 (if low0 then .ignored else .idle)).trans
      (portSteps_setTxn _ 1 (if low1 then .ignored else .idle)), ?_, rfl⟩
    simp [State.setTxn, Port.atRelease, State.setPort_ports]
  · exact ⟨s, .refl, rfl, rfl⟩

theorem exec_keeps_portLaw {c : Instr} {s t : State} (h : s.PortLaw) (hexec : exec c s = .next t) : t.PortLaw := by
  cases commandSort c with
  | port hport =>
    obtain ⟨u, hu, hsteps⟩ := hport s
    rw [hexec] at hu
    cases hu
    exact h.portSteps hsteps
  | request k p x hc =>
    subst hc
    rw [exec_requestInstr] at hexec
    cases hexec
    exact h.serveFrame (leavesFront_admission k p) _ p x
  | unknown p x hc =>
    subst hc
    rw [exec_unknownKind] at hexec
    cases hexec
    exact h.serveFrame leavesFront_unknownKind _ p x
  | own hown =>
    obtain ⟨u, hu, -, hfront⟩ := exec_own_front hown s
    rw [hexec] at hu
    cases hu
    rcases hfront with ⟨hports, hengine⟩ | rfl | ⟨low0, low1, rfl⟩
    · exact h.congr hports hengine
    · exact portLaw_resetAssert s
    · obtain ⟨u, hsteps, hports, hengine⟩ := resetRelease_portSteps low0 low1 s
      exact (h.portSteps hsteps).congr hports hengine

/-! ### One step -/

theorem step_of_pending {c : Instr} {cs : List Instr} {s : State} (h : s.pending = c :: cs) :
    step s = exec c { s with pending := cs } := by
  simp only [step, h]

theorem step_of_idle {s : State} (h : s.pending = []) : step s = .next s := by
  simp only [step, h]

/-- A property that does not speak of the queue, and that every command keeps, is kept by every step. -/
theorem step_keeps {P : State → Prop} (hqueue : ∀ s cs, P s → P { s with pending := cs })
    (hexec : ∀ c s t, P s → exec c s = .next t → P t) {s t : State} (h : P s) (hstep : step s = .next t) : P t := by
  cases hpending : s.pending with
  | nil =>
    rw [step_of_idle hpending] at hstep
    cases hstep
    exact h
  | cons c cs =>
    rw [step_of_pending hpending] at hstep
    exact hexec c _ t (hqueue s cs h) hstep

/-! ### The obligations -/

/-- Settles O1: the queue is taken apart as `step` does. -/
theorem stepRunsFrontCommand : Obligations.StepRunsFrontCommand :=
  ⟨fun _ _ _ h => step_of_pending h, fun _ h => step_of_idle h⟩

/-- Settles O2: an event of a port, the service of a frame and the part's own commands each end in a next state, and
none of them reaches the queue. -/
theorem everyCommandCompletes : Obligations.EveryCommandCompletes := by
  intro c s
  cases commandSort c with
  | port hport =>
    obtain ⟨t, ht, hsteps⟩ := hport s
    exact ⟨t, ht, by rw [portSteps_frame hsteps]⟩
  | request k p x hc =>
    subst hc
    exact ⟨_, exec_requestInstr k p x s, serveFrame_pending (leavesFront_admission k p) _ p x s⟩
  | unknown p x hc =>
    subst hc
    exact ⟨_, exec_unknownKind p x s, serveFrame_pending leavesFront_unknownKind _ p x s⟩
  | own hown =>
    obtain ⟨t, ht, hpending, -⟩ := exec_own_front hown s
    exact ⟨t, ht, hpending⟩

/-- Settles O5: transactions keep each port's own law and never make or end a taken request; the take and the delivery
move the one port and the engine together. -/
theorem portLawKeptByEveryStep : Obligations.PortLawKeptByEveryStep := by
  intro s t h hstep
  exact step_keeps (fun s cs h => h.congr rfl rfl) (fun c s t => exec_keeps_portLaw) h hstep

end Sys2Proof.Machine
end

section
/-! PROOF. What a request's execution and the part's own commands can do to the tables, said once: the steps of one
record, the work around it, and the inversion of every meaning into these. -/
namespace Sys2Proof.Machine

/-! ### The steps of one record -/

/-- What one command can make of an active record, other than its binding; `a` is the requester. -/
inductive Record.Step (a : Agent) (r : Record) : Record → Prop
  | passOn : Step a r r.passOn
  | afterLapse (t : Trigger) : Step a r (r.afterLapse t)
  | grantNow (h : ∀ o, r.state ≠ .held o) : Step a r (r.grantNow a)
  | wait (o : Agent) (hheld : r.state = .held o) (hother : o ≠ a) (hout : a ∉ r.queue) (hroom : r.queue.length < 4) :
      Step a r { r with queue := r.queue ++ [a] }
  | cancelClaim : Step a r { r with queue := r.queue.erase a }
  | restore (h : r.state = .lapsed) :
      Step a r { r with state := .opened, safePending := false, revision := r.revision + 1 }
  | stageWaiting (v : Value) (h : within v r.min r.max = true) : Step a r (r.stageWaiting a v)
  | stageNow (v : Value) (h : within v r.min r.max = true) : Step a r (r.stageNow v)
  | unstage : Step a r { r with staged := none, revision := r.revision + 1 }
  | tuned (f : TuneFields) (h : (r.tuned f).LimitsLaw) : Step a r (r.tuned f)
  | tunedApplied (f : TuneFields) (h : (r.tuned f).LimitsLaw) {r' : Record} (happ : (r.tuned f).applyWork = some r') :
      Step a r r'
  | swept {r' : Record} (happ : r.applyWork = some r') : Step a r { r' with revision := r.revision + 1 }
  | watch : Step a r { r with watchers := r.watchers.insert a }
  | unwatch : Step a r { r with watchers := r.watchers.erase a }

/-- An application writes the live value, the staged value and the mark, and no other field. -/
theorem applyWork_frame {r r' : Record} (h : r.applyWork = some r') :
    ∃ v, r' = { r with live := v, staged := none, safePending := false } := by
  rcases applyWork_cases r with ⟨-, -, hnone⟩ | ⟨v, -, happ⟩ | ⟨-, -, happ⟩
  · rw [hnone] at h; cases h
  · rw [happ] at h; cases h; exact ⟨v, rfl⟩
  · rw [happ] at h; cases h; exact ⟨r.safe, rfl⟩

/-- The record's ownership: the state, the queue and the watchers. -/
theorem passOn_cases (r : Record) :
    (r.queue = [] ∧ r.passOn = { r with state := .opened, staged := none, revision := r.revision + 1 })
      ∨ ∃ w ws, r.queue = w :: ws
          ∧ r.passOn = { r with state := .held w, staged := none, queue := ws, revision := r.revision + 1 } := by
  unfold Record.passOn
  split
  · next h => exact .inl ⟨h, rfl⟩
  · next w ws h => exact .inr ⟨w, ws, h, rfl⟩

/-- A lapse step either leaves the record LAPSED with no queue, or hands it to the head waiter. -/
theorem afterLapse_cases (r : Record) (t : Trigger) :
    (r.queue = [] ∧ (r.afterLapse t).state = .lapsed ∧ (r.afterLapse t).queue = [])
      ∨ ∃ w ws, r.queue = w :: ws ∧ (r.afterLapse t).state = .held w ∧ (r.afterLapse t).queue = ws := by
  cases h : r.queue with
  | nil => exact .inl ⟨rfl, by rw [afterLapse_of_no_waiter h]; exact ⟨rfl, (lapsePolicy_queue r t).trans h⟩⟩
  | cons w ws => exact .inr ⟨w, ws, rfl, by rw [afterLapse_of_waiter h]; exact ⟨rfl, rfl⟩⟩

section
variable {a : Agent} {r r' : Record}

/-- No step gives a record another key or another binding. -/
theorem Record.Step.key_binding (h : Record.Step a r r') : r'.key = r.key ∧ r'.binding = r.binding := by
  cases h with
  | passOn => rcases passOn_cases r with ⟨-, h⟩ | ⟨w, ws, -, h⟩ <;> rw [h] <;> exact ⟨rfl, rfl⟩
  | afterLapse t => rw [afterLapse_frame]; exact ⟨rfl, rfl⟩
  | tunedApplied f _ happ => obtain ⟨v, rfl⟩ := applyWork_frame happ; exact ⟨rfl, rfl⟩
  | swept happ => obtain ⟨v, rfl⟩ := applyWork_frame happ; exact ⟨rfl, rfl⟩
  | _ => exact ⟨rfl, rfl⟩

/-- The agents a step brings in: an owner comes from the queue or is the requester, a claimant or a watcher is the
requester. -/
theorem Record.Step.members (h : Record.Step a r r') :
    (∀ b, r'.state = .held b → r.state = .held b ∨ b ∈ r.queue ∨ b = a)
      ∧ (∀ b ∈ r'.queue, b ∈ r.queue ∨ b = a)
      ∧ ∀ b, r'.watchers.mem b = true → r.watchers.mem b = true ∨ b = a := by
  have hsame : (∀ b, r.state = .held b → r.state = .held b ∨ b ∈ r.queue ∨ b = a)
      ∧ (∀ b ∈ r.queue, b ∈ r.queue ∨ b = a)
      ∧ ∀ b, r.watchers.mem b = true → r.watchers.mem b = true ∨ b = a :=
    ⟨fun _ => .inl, fun _ => .inl, fun _ => .inl⟩
  obtain ⟨hstate, hqueue, hwatchers⟩ := hsame
  cases h with
  | passOn =>
    rcases passOn_cases r with ⟨-, h⟩ | ⟨w, ws, hq, h⟩
    · rw [h]; exact ⟨fun b hb => (by cases hb), hqueue, hwatchers⟩
    · rw [h]
      refine ⟨fun b hb => ?_, fun b hb => ?_, hwatchers⟩
      · cases hb; exact .inr (.inl (by simp [hq]))
      · exact .inl (by rw [hq]; exact List.mem_cons_of_mem w hb)
  | afterLapse t =>
    have hw : (r.afterLapse t).watchers = r.watchers := by rw [afterLapse_frame]
    rcases afterLapse_cases r t with ⟨-, hs, hq'⟩ | ⟨w, ws, hq, hs, hq'⟩
    · rw [hs, hq', hw]; exact ⟨fun b hb => (by cases hb), fun b hb => (by cases hb), hwatchers⟩
    · rw [hs, hq', hw]
      refine ⟨fun b hb => ?_, fun b hb => ?_, hwatchers⟩
      · cases hb; exact .inr (.inl (by simp [hq]))
      · exact .inl (by rw [hq]; exact List.mem_cons_of_mem w hb)
  | grantNow _ => exact ⟨fun b hb => (by cases hb; exact .inr (.inr rfl)), hqueue, hwatchers⟩
  | wait => exact ⟨hstate, fun b hb => by simpa using hb, hwatchers⟩
  | cancelClaim => exact ⟨hstate, fun b hb => .inl (List.mem_of_mem_erase hb), hwatchers⟩
  | restore => exact ⟨fun b hb => (by cases hb), hqueue, hwatchers⟩
  | tunedApplied f _ happ => obtain ⟨v, rfl⟩ := applyWork_frame happ; exact ⟨hstate, hqueue, hwatchers⟩
  | swept happ => obtain ⟨v, rfl⟩ := applyWork_frame happ; exact ⟨hstate, hqueue, hwatchers⟩
  | watch =>
    refine ⟨hstate, hqueue, fun b hb => ?_⟩
    rcases Bool.or_eq_true_iff.1 ((FinSet.mem_insert _ _ _).symm.trans hb) with hab | hmem
    · exact .inr (of_decide_eq_true hab).symm
    · exact .inl hmem
  | unwatch => exact ⟨hstate, hqueue, fun b hb => .inl (by simp at hb; exact hb.2)⟩
  | stageWaiting | stageNow | unstage | tuned => exact ⟨hstate, hqueue, hwatchers⟩

end

/-! ### The conditions told to an agent -/

/-- A row after conditions that were told to its agent, in any number. -/
abbrev AgentRow.Told : AgentRow → AgentRow → Prop :=
  Relation.ReflTransGen fun x y => ∃ r h k, y = x.condition r h k

theorem told_condition (x : AgentRow) (r : Reason) (h : Handle) (k : Key) : x.Told (x.condition r h k) :=
  .single ⟨r, h, k, rfl⟩

theorem condition_of_not_attached {x : AgentRow} (hx : x.state ≠ .attached) (r : Reason) (h : Handle) (k : Key) :
    x.condition r h k = x := if_pos hx

theorem AgentRow.Told.sameSession {x y : AgentRow} (h : x.Told y) : x.SameSession y := by
  induction h with
  | refl => exact .refl x
  | tail _ hstep ih =>
    obtain ⟨r, h, k, rfl⟩ := hstep
    exact ih.trans (condition_sameSession _ r h k)

/-- Nothing is recorded for a session that is not ATTACHED (R131). -/
theorem AgentRow.Told.eq_of_not_attached {x y : AgentRow} (h : x.Told y) (hx : x.state ≠ .attached) : y = x := by
  induction h with
  | refl => rfl
  | tail _ hstep ih =>
    obtain ⟨r, h, k, rfl⟩ := hstep
    subst ih
    exact condition_of_not_attached hx r h k

/-! ### The work on one record -/

/-- From `s` to `t` the record `r` of slot `i` becomes `r'`, its changed live value sends the notice that R141 asks for,
agents may be told conditions, and nothing else changes. -/
structure State.Touch (s : State) (i : SlotNo) (r r' : Record) (t : State) : Prop where
  record : s.record i = some r
  slots : t.slots = (s.setRecord i (some r')).slots
  channels : t.channels = (s.noticeChange r.binding r.live r'.live).channels
  updateQueue : t.updateQueue = (s.noticeChange r.binding r.live r'.live).updateQueue
  around : s.SameAround t
  front : s.SameFront t
  told : ∀ b, (s.row b).Told (t.row b)

/-- An optional record is written only to what was there before: the slot's record is a step from the former one. -/
theorem State.record_setRecord (s : State) (i j : SlotNo) (r : Option Record) :
    (s.setRecord i r).record j = if i = j then r else s.record j := by
  by_cases h : i = j
  · subst h; simp
  · simp [h]

theorem State.record_congr {s t : State} (h : t.slots = s.slots) (i : SlotNo) : t.record i = s.record i := by
  rw [State.record, h, State.record]

theorem row_told_condition (s : State) (a b : Agent) (x : Reason) (h : Handle) (k : Key) :
    (s.row b).Told ((s.condition a x h k).row b) := by
  rw [row_condition]
  split
  · exact told_condition _ x h k
  · exact .refl

theorem row_told_conditionAll (s : State) (w : AgentSet) (b : Agent) (x : Reason) (h : Handle) (k : Key) :
    (s.row b).Told ((s.conditionAll w x h k).row b) := by
  rw [row_conditionAll]
  split
  · exact told_condition _ x h k
  · exact .refl

namespace State.Touch
variable {s t : State} {i : SlotNo} {r r' : Record}

theorem record_eq (h : s.Touch i r r' t) (j : SlotNo) : t.record j = if i = j then some r' else s.record j := by
  rw [State.record_congr h.slots, State.record_setRecord]

theorem setRecord (hrec : s.record i = some r) (hlive : r'.live = r.live) :
    s.Touch i r r' (s.setRecord i (some r')) := by
  have hquiet := noticeChange_of_quiet (b := r.binding) (.inr hlive.symm) s
  exact ⟨hrec, rfl, by rw [hquiet]; rfl, by rw [hquiet]; rfl, .setRecord s i _, (SameFront.refl s).setRecord i _,
    fun _ => .refl⟩

theorem condition (h : s.Touch i r r' t) (a : Agent) (x : Reason) (hd : Handle) (k : Key) :
    s.Touch i r r' (t.condition a x hd k) :=
  ⟨h.record, h.slots, h.channels, h.updateQueue, h.around.trans (.condition t a x hd k), h.front.condition a x hd k,
    fun b => (h.told b).trans (row_told_condition t a b x hd k)⟩

theorem conditionAll (h : s.Touch i r r' t) (w : AgentSet) (x : Reason) (hd : Handle) (k : Key) :
    s.Touch i r r' (t.conditionAll w x hd k) :=
  ⟨h.record, h.slots, h.channels, h.updateQueue, h.around.trans (.conditionAll t w x hd k),
    h.front.conditionAll w x hd k, fun b => (h.told b).trans (row_told_conditionAll t w b x hd k)⟩

/-- A condition told beforehand is one of the conditions told. -/
theorem of_condition {a : Agent} {x : Reason} {hd : Handle} {k : Key} (h : (s.condition a x hd k).Touch i r r' t) :
    s.Touch i r r' t := by
  have hnotice : ((s.condition a x hd k).noticeChange r.binding r.live r'.live).channels
        = (s.noticeChange r.binding r.live r'.live).channels
      ∧ ((s.condition a x hd k).noticeChange r.binding r.live r'.live).updateQueue
        = (s.noticeChange r.binding r.live r'.live).updateQueue := by
    unfold State.noticeChange
    repeat' split
    all_goals exact ⟨rfl, rfl⟩
  exact ⟨h.record, h.slots, h.channels.trans hnotice.1, h.updateQueue.trans hnotice.2,
    (SameAround.condition s a x hd k).trans h.around, ((SameFront.refl s).condition a x hd k).trans h.front,
    fun b => (row_told_condition s a b x hd k).trans (h.told b)⟩

/-- The record written and its changed live value noticed. -/
theorem noticed (hrec : s.record i = some r) :
    s.Touch i r r' ((s.setRecord i (some r')).noticeChange r.binding r.live r'.live) := by
  have hrow := fun b => row_noticeChange (s.setRecord i (some r')) r.binding r.live r'.live b
  refine ⟨hrec, slots_noticeChange _ _ _ _, ?_, ?_, (SameAround.setRecord s i _).trans (.noticeChange _ _ _ _),
    ((SameFront.refl s).setRecord i _).noticeChange _ _ _, fun b => by rw [hrow b]; exact .refl⟩
  all_goals
    unfold State.noticeChange
    repeat' split
    all_goals rfl

theorem liveChanged (hrec : s.record i = some r) (who : AgentSet) :
    s.Touch i r r' ((s.setRecord i (some r')).liveChanged i r r'.live who) := by
  by_cases hlive : r.live = r'.live
  · rw [liveChanged_of_same hlive]; exact setRecord hrec hlive.symm
  · rw [liveChanged_of_changed hlive]; exact (noticed hrec).conditionAll who _ _ _

theorem handOver (hrec : s.record i = some r) (a : Agent) : s.Touch i r r.passOn (s.handOver i r a) := by
  have hset : s.Touch i r r.passOn (s.setRecord i (some r.passOn)) := by
    refine setRecord hrec ?_
    rcases passOn_cases r with ⟨-, h⟩ | ⟨w, ws, -, h⟩ <;> rw [h]
  unfold State.handOver
  repeat' split
  · exact hset
  · exact hset
  · exact hset.condition _ _ _ _

theorem lapseStep (hrec : s.record i = some r) :
    s.Touch i r (r.afterLapse (s.triggerOf r.group)) (s.lapseStep i) := by
  rw [lapseStep_some hrec]
  dsimp only
  split
  · exact (noticed hrec).conditionAll _ _ _ _
  · exact ((noticed hrec).conditionAll _ _ _ _).condition _ _ _ _

end State.Touch

/-- A record is touched by a step of requester `a`; a claim queue that grows finds an entry free in the pool (R70). -/
def State.TouchedBy (s : State) (a : Agent) (t : State) : Prop :=
  ∃ i r r', s.Touch i r r' t ∧ Record.Step a r r'
    ∧ (r'.queue.length ≤ r.queue.length ∨ (r' = { r with queue := r.queue ++ [a] } ∧ s.claimsInUse < 64))

theorem State.Touch.touchedBy {s t : State} {i : SlotNo} {r r' : Record} {a : Agent} (h : s.Touch i r r' t)
    (hstep : Record.Step a r r') (hlen : r'.queue.length ≤ r.queue.length) : s.TouchedBy a t :=
  ⟨i, r, r', h, hstep, .inl hlen⟩

theorem touchedBy_setRecord {s : State} {i : SlotNo} {r r' : Record} {a : Agent} (hrec : s.record i = some r)
    (hstep : Record.Step a r r') (hlive : r'.live = r.live) (hlen : r'.queue.length ≤ r.queue.length) :
    s.TouchedBy a (s.setRecord i (some r')) :=
  (State.Touch.setRecord hrec hlive).touchedBy hstep hlen

theorem touchedBy_liveChanged {s : State} {i : SlotNo} {r r' : Record} {a : Agent} (hrec : s.record i = some r)
    (hstep : Record.Step a r r') (hlen : r'.queue.length ≤ r.queue.length) (who : AgentSet) :
    s.TouchedBy a ((s.setRecord i (some r')).liveChanged i r r'.live who) :=
  (State.Touch.liveChanged hrec who).touchedBy hstep hlen

theorem releaseSlot_touched (s : State) (a : Agent) (i : SlotNo) :
    s.releaseSlot a i = s ∨ s.TouchedBy a (s.releaseSlot a i) := by
  unfold State.releaseSlot
  split
  · exact .inl rfl
  · next r hrec =>
    have hstep : Record.Step a r r.passOn := .passOn
    refine .inr ((State.Touch.handOver hrec a).touchedBy hstep ?_)
    rcases passOn_cases r with ⟨-, h⟩ | ⟨w, ws, hq, h⟩
    · rw [h]
    · rw [h, hq]; simp

theorem lapseStep_touched (s : State) (a : Agent) (i : SlotNo) :
    s.lapseStep i = s ∨ s.TouchedBy a (s.lapseStep i) := by
  cases hrec : s.record i with
  | none => exact .inl (by simp only [State.lapseStep, hrec])
  | some r =>
    refine .inr ((State.Touch.lapseStep hrec).touchedBy (.afterLapse _) ?_)
    rcases afterLapse_cases r (s.triggerOf r.group) with ⟨-, -, h⟩ | ⟨w, ws, hq, -, h⟩
    · rw [h]; simp
    · rw [h, hq]; simp

theorem visit_touched {s : State} {i : SlotNo} {r : Record} (hrec : s.record i = some r) (a : Agent) :
    s.visit i r = s ∨ s.TouchedBy a (s.visit i r) := by
  unfold State.visit
  split
  · exact .inl rfl
  · next r' happ =>
    refine .inr (touchedBy_liveChanged hrec (.swept happ) ?_ r.watchers)
    obtain ⟨v, rfl⟩ := applyWork_frame happ
    exact le_rfl

/-! ### Checks that answer without writing -/

/-- An answer that either writes nothing or ends in a state of `Q`. -/
def Answer.Writes (A : Answer) (s : State) (Q : State → Prop) : Prop := A.st = s ∨ Q A.st

section
variable {s : State} {Q : State → Prop}

theorem writes_nothing {A : Answer} (h : A.st = s) : A.Writes s Q := .inl h

theorem writes_refuse (o : ReqOutcome) : (refuse s o).Writes s Q := .inl rfl

theorem writes_onHandle {h : Handle} {k : Record → Answer} (hk : ∀ r, s.record h.slot = some r → (k r).Writes s Q) :
    (onHandle s h k).Writes s Q := by
  unfold onHandle
  split
  · exact writes_refuse _
  · next r hres =>
    refine hk r ?_
    unfold State.resolve at hres
    split at hres
    · exact hres
    · cases hres

theorem writes_needRight {A : Answer} (a : Agent) (c : ClassNo) (x : Right) (h : A.Writes s Q) :
    (needRight s a c x A).Writes s Q := by
  unfold needRight
  split
  · exact h
  · exact writes_refuse _

theorem writes_needOwner {A : Answer} (b : Bool) (h : A.Writes s Q) : (needOwner s b A).Writes s Q := by
  unfold needOwner
  split
  · exact h
  · exact writes_refuse _

theorem writes_needGuard {A : Answer} (hd : Handle) (r : Record) (g : Option (BitVec 16)) (h : A.Writes s Q) :
    (needGuard s hd r g A).Writes s Q := by
  unfold needGuard
  split
  · exact h
  · split
    · exact h
    · exact writes_nothing rfl

end

/-! ### The kinds that touch one record -/

section
variable (q : Request) (s : State)

theorem claimDecision_writes {h : Handle} {r : Record} (hrec : s.record h.slot = some r) (a : Agent) (wait : Bool) :
    (claimDecision s h r a wait).Writes s (s.TouchedBy a) := by
  have hnow : (∀ o, r.state ≠ .held o) → (claimNow s h r a).Writes s (s.TouchedBy a) := fun hfree =>
    .inr (touchedBy_setRecord hrec (.grantNow hfree) rfl le_rfl)
  unfold claimDecision
  split
  · next hstate => exact hnow fun o ho => by rw [hstate] at ho; cases ho
  · next hstate => exact hnow fun o ho => by rw [hstate] at ho; cases ho
  · next o hheld =>
    split_ifs with hown hwait hin hfull hpool
    · exact writes_nothing rfl
    · exact writes_nothing rfl
    · exact writes_nothing rfl
    · exact writes_nothing rfl
    · exact writes_refuse _
    · have hroom : s.claimsInUse < 64 := by
        by_contra hc
        exact hpool (Nat.sub_eq_zero_of_le (not_lt.1 hc))
      refine .inr ⟨h.slot, r, _, .setRecord hrec rfl, .wait o hheld hown ?_ (not_le.1 hfull), .inr ⟨rfl, hroom⟩⟩
      simpa using hin

theorem carryClaim_writes : (carryClaim q s).Writes s (s.TouchedBy q.agent) := by
  unfold carryClaim
  split
  · exact writes_refuse _
  · exact writes_onHandle fun r hrec =>
      writes_needRight _ _ _ (writes_needGuard _ _ _ (claimDecision_writes s hrec q.agent _))

theorem carryRelease_writes : (carryRelease q s).Writes s (s.TouchedBy q.agent) := by
  unfold carryRelease
  split
  · exact writes_refuse _
  · next h g _ =>
    refine writes_onHandle fun r hrec => writes_needOwner _ (writes_needGuard _ _ _ ?_)
    have hrelease := releaseSlot_touched s q.agent h.slot
    simp only [State.releaseSlot, hrec] at hrelease
    exact hrelease

theorem carryCancelClaim_writes : (carryCancelClaim q s).Writes s (s.TouchedBy q.agent) := by
  unfold carryCancelClaim
  split
  · exact writes_refuse _
  · refine writes_onHandle fun r hrec => ?_
    split
    · exact writes_refuse _
    · exact .inr (touchedBy_setRecord hrec .cancelClaim rfl List.length_erase_le)

theorem carryRevoke_writes : (carryRevoke q s).Writes s (s.TouchedBy q.agent) := by
  unfold carryRevoke
  split
  · exact writes_refuse _
  · next h _ _ =>
    refine writes_onHandle fun r hrec => ?_
    split
    · next o _ =>
      have hlen : r.passOn.queue.length ≤ r.queue.length := by
        rcases passOn_cases r with ⟨-, h⟩ | ⟨w, ws, hq, h⟩
        · rw [h]
        · rw [h, hq]; simp
      refine .inr (State.Touch.touchedBy (i := h.slot) ?_ .passOn hlen)
      unfold State.tellRevoked
      split
      · exact .handOver hrec q.agent
      · exact State.Touch.of_condition (a := o)
          (.handOver (s := s.condition o .revoked h r.key) hrec q.agent)
    · exact writes_nothing rfl
    · exact writes_nothing rfl

theorem carryRestore_writes : (carryRestore q s).Writes s (s.TouchedBy q.agent) := by
  unfold carryRestore
  split
  · exact writes_refuse _
  · refine writes_onHandle fun r hrec => ?_
    split
    · next hlapsed => exact .inr (touchedBy_setRecord hrec (.restore hlapsed) rfl le_rfl)
    · exact writes_nothing rfl

theorem carryStage_writes : (carryStage q s).Writes s (s.TouchedBy q.agent) := by
  unfold carryStage
  split
  · exact writes_refuse _
  · next h v g _ =>
    refine writes_onHandle fun r hrec =>
      writes_needRight _ _ _ (writes_needOwner _ (writes_needGuard _ _ _ ?_))
    split
    · exact writes_nothing rfl
    · next hwithin =>
      have hwithin : within v r.min r.max = true := by simpa using hwithin
      unfold stageAccepted
      split
      · exact .inr (touchedBy_liveChanged hrec (.stageNow v hwithin) le_rfl _)
      · exact .inr (touchedBy_setRecord hrec (.stageWaiting v hwithin) rfl le_rfl)

theorem carryUnstage_writes : (carryUnstage q s).Writes s (s.TouchedBy q.agent) := by
  unfold carryUnstage
  split
  · exact writes_refuse _
  · refine writes_onHandle fun r hrec =>
      writes_needRight _ _ _ (writes_needOwner _ (writes_needGuard _ _ _ ?_))
    split
    · exact writes_nothing rfl
    · exact .inr (touchedBy_setRecord hrec .unstage rfl le_rfl)

theorem carryTune_writes : (carryTune q s).Writes s (s.TouchedBy q.agent) := by
  unfold carryTune
  split
  · exact writes_refuse _
  · next f _ =>
    refine writes_onHandle fun r hrec =>
      writes_needRight _ _ _ (writes_needOwner _ (writes_needGuard _ _ _ ?_))
    split
    · exact writes_nothing rfl
    · next hnone =>
      have hlaw := limitConflict_none_iff.1 hnone
      unfold tuneAccepted
      split
      · next r' hwork =>
        have happ : (r.tuned f).applyWork = some r' := by
          unfold State.tuneWork at hwork
          split at hwork
          · exact hwork
          · cases hwork
        refine .inr (touchedBy_liveChanged hrec (.tunedApplied f hlaw happ) ?_ _)
        obtain ⟨v, rfl⟩ := applyWork_frame happ
        exact le_rfl
      · exact .inr (touchedBy_setRecord hrec (.tuned f hlaw) rfl le_rfl)

theorem carryWatch_writes : (carryWatch q s).Writes s (s.TouchedBy q.agent) := by
  unfold carryWatch
  split
  · exact writes_refuse _
  · exact writes_onHandle fun r hrec =>
      writes_needRight _ _ _ (.inr (touchedBy_setRecord hrec .watch rfl le_rfl))

theorem carryUnwatch_writes : (carryUnwatch q s).Writes s (s.TouchedBy q.agent) := by
  unfold carryUnwatch
  split
  · exact writes_refuse _
  · refine writes_onHandle fun r hrec => ?_
    split
    · exact writes_refuse _
    · exact .inr (touchedBy_setRecord hrec .unwatch rfl le_rfl)

end

/-! ### Every execution -/

/-- What the execution of request `q` makes of the tables, by kind. -/
inductive State.Carried (s : State) (q : Request) : ReqKind → State → Prop
  | same (k : ReqKind) : Carried s q k s
  | touched (k : ReqKind) {t : State} (hsender : (s.row q.agent).state = .attached) (h : s.TouchedBy q.agent t) :
      Carried s q k t
  | attach (n : Nat) (h : (s.row q.agent).state ≠ .attached) :
      Carried s q .attach (s.setRow q.agent ((s.row q.agent).begin q.port n))
  | attachOver (n : Nat) (h : (s.row q.agent).state = .attached) :
      Carried s q .attach
        ((s.lapseAgent q.agent).setRow q.agent (((s.lapseAgent q.agent).row q.agent).begin q.port n))
  | detach : Carried s q .detach (s.detachAgent q.agent)
  | restart (hsender : (s.row 0).state = .attached) : Carried s q .restart s.restartAll
  | setRights (b : Agent) (c : ClassNo) (rs : RightSet) : Carried s q .setRights (s.setRightsOf b c rs)
  | create (f : CreateFields) (i : SlotNo) (rest : List SlotNo) (hsender : (s.row q.agent).state = .attached)
      (hparse : parseCreate q.options q.body = some f) (hkey : ∀ e ∈ s.keyIndex, e.1 ≠ f.key)
      (hfree : s.freeList = i :: rest) (hlive : within f.live f.min f.max = true)
      (hsafe : within f.safe f.min f.max = true) :
      Carried s q .create (s.placeRecord i rest (newRecord q.agent f))
  | retire (h : Handle) (r : Record) (hrec : s.record h.slot = some r) :
      Carried s q .retire ((s.conditionAll (r.retireTold q.agent) .retired h r.key).dismantle h.slot r)
  | apply (gs : GroupSet) : Carried s q .apply (s.raiseAll gs)
  | setGroup (f : GroupFields) (hparse : parseSetGroup q.options q.body = some f) :
      Carried s q .setGroup (s.setGroup f.group ((s.group f.group).configure f))
  | fetchAttention : Carried s q .fetchAttention (s.fetched q.agent)
  | bind (c : ChannelNo) (h : Handle) (r : Record) (hrec : s.record h.slot = some r)
      (hchannel : (s.channel c).binding = none) (hbinding : r.binding = none) :
      Carried s q .bind ((s.join c h.slot r).notice c .value r.live)
  | unbind (c : ChannelNo) (i : SlotNo) (hchannel : (s.channel c).binding = some i) :
      Carried s q .unbind ((s.unbindRecord i).parkChannel c)
  | setParkBound (c : ChannelNo) (v : Value) (hchannel : (s.channel c).binding ≠ none) :
      Carried s q .setPark (s.setChannel c { (s.channel c) with park := v })
  | setParkUnbound (c : ChannelNo) (v : Value) (hchannel : (s.channel c).binding = none) :
      Carried s q .setPark (State.notice (s.setChannel c { (s.channel c) with park := v }) c .parked v)
  | linkResume (u : Update) (h : s.link = .stalled u) : Carried s q .linkResume { s with link := .sending u 1 }

theorem State.Carried.of_writes {s : State} {q : Request} {k : ReqKind} {A : Answer}
    (hsender : (s.row q.agent).state = .attached) (h : A.Writes s (s.TouchedBy q.agent)) : s.Carried q k A.st := by
  rcases h with h | h
  · rw [h]; exact .same k
  · exact .touched k hsender h

theorem State.Carried.of_writes' {s : State} {q : Request} {k : ReqKind} {A : Answer}
    (h : A.Writes s (s.Carried q k)) : s.Carried q k A.st := by
  rcases h with h | h
  · rw [h]; exact .same k
  · exact h

section
variable {q : Request} {s : State}

theorem carryCreate_carried (hsender : (s.row q.agent).state = .attached) :
    s.Carried q .create (carryCreate q s).st := by
  refine .of_writes' ?_
  unfold carryCreate
  split
  · exact writes_refuse _
  · next f hparse =>
    refine writes_needRight _ _ _ ?_
    split
    · exact writes_refuse _
    · next hkey =>
      split
      · exact writes_refuse _
      · next i rest hfree =>
        split
        · exact writes_refuse _
        · next hvalues =>
          have hvalues : (within f.live f.min f.max && within f.safe f.min f.max) = true := by simpa using hvalues
          obtain ⟨hlive, hsafe⟩ := Bool.and_eq_true_iff.1 hvalues
          refine .inr (.create f i rest hsender hparse (findKey_none.1 ?_) hfree hlive hsafe)
          simpa using hkey

theorem carryRetire_carried : s.Carried q .retire (carryRetire q s).st := by
  refine .of_writes' ?_
  unfold carryRetire
  split
  · exact writes_refuse _
  · next h g _ =>
    refine writes_onHandle fun r hrec =>
      writes_needRight _ _ _ (writes_needOwner _ (writes_needGuard _ _ _ ?_))
    split
    · exact writes_refuse _
    · exact .inr (.retire h r hrec)

theorem carryAttach_carried : s.Carried q .attach (carryAttach q s).st := by
  unfold carryAttach
  split
  · exact .same _
  · next n _ =>
    dsimp only
    split
    · next h => exact .attachOver n h
    · next h => exact .attach n h

theorem carryBind_carried : s.Carried q .bind (carryBind q s).st := by
  refine .of_writes' ?_
  unfold carryBind
  split
  · exact writes_refuse _
  · next c h _ =>
    refine writes_onHandle fun r hrec => ?_
    split
    · exact writes_nothing rfl
    · next hchannel =>
      split
      · exact writes_nothing rfl
      · next hbinding => exact .inr (.bind c h r hrec hchannel hbinding)

theorem carrySetPark_carried : s.Carried q .setPark (carrySetPark q s).st := by
  unfold carrySetPark
  split
  · exact .same _
  · next c v _ =>
    dsimp only
    split
    · next h => exact .setParkUnbound c v (by simpa using h)
    · next h => exact .setParkBound c v (by simpa using h)

/-- Every execution of a request past its session checks, seen from the tables. -/
theorem carryOf_carried {k : ReqKind}
    (h : k = .attach ∨ ((s.row q.agent).state = .attached ∧ (k.supervisorOnly = true → q.agent = 0))) :
    s.Carried q k (carryOf k q s).st := by
  rcases h with rfl | ⟨hsender, hsupervisor⟩
  · exact carryAttach_carried
  cases k with
  | attach => exact carryAttach_carried
  | create => exact carryCreate_carried hsender
  | retire => exact carryRetire_carried
  | bind => exact carryBind_carried
  | setPark => exact carrySetPark_carried
  | claim => exact .of_writes hsender (carryClaim_writes q s)
  | release => exact .of_writes hsender (carryRelease_writes q s)
  | cancelClaim => exact .of_writes hsender (carryCancelClaim_writes q s)
  | revoke => exact .of_writes hsender (carryRevoke_writes q s)
  | restore => exact .of_writes hsender (carryRestore_writes q s)
  | stage => exact .of_writes hsender (carryStage_writes q s)
  | unstage => exact .of_writes hsender (carryUnstage_writes q s)
  | tune => exact .of_writes hsender (carryTune_writes q s)
  | watch => exact .of_writes hsender (carryWatch_writes q s)
  | unwatch => exact .of_writes hsender (carryUnwatch_writes q s)
  | detach =>
    simp only [carryOf, carryDetach]
    split
    · exact .same _
    · exact .detach
  | restart =>
    simp only [carryOf, carryRestart]
    split
    · exact .same _
    · exact .restart (hsupervisor rfl ▸ hsender)
  | setRights =>
    simp only [carryOf, carrySetRights]
    split
    · exact .same _
    · exact .setRights _ _ _
  | apply =>
    simp only [carryOf, carryApply]
    repeat' split
    · exact .same _
    · exact .same _
    · exact .same _
    · exact .apply _
  | setGroup =>
    simp only [carryOf, carrySetGroup]
    split
    · exact .same _
    · next f hparse => exact .setGroup f hparse
  | fetchAttention =>
    simp only [carryOf, carryFetchAttention]
    split
    · exact .same _
    · exact .fetchAttention
  | unbind =>
    simp only [carryOf, carryUnbind]
    repeat' split
    · exact .same _
    · exact .same _
    · next c _ _ i hchannel => exact .unbind c i hchannel
  | linkResume =>
    simp only [carryOf, carryLinkResume]
    repeat' split
    · exact .same _
    · next u hlink => exact .linkResume u hlink
    all_goals exact .same _
  | keepalive | queryAgent | lookup | read | enumerate | queryGroup | queryChannel =>
    simp only [carryOf, carryKeepalive, carryQueryAgent, carryLookup, carryRead, carryEnumerate, carryQueryGroup,
      carryQueryChannel, onHandle, needRight, refuse]
    repeat' split
    all_goals exact .same _

end

/-! ### The part's own commands -/

/-- What one of the part's own commands, other than the assertion of nRST, makes of the state; a command without an occasion changes nothing (log 2). -/
inductive State.Worked (s : State) : State → Prop
  | same : Worked s s
  | lapse (a : Agent) (hready : s.phase = .ready) (h : (s.row a).expired = true) :
      Worked s (s.grantInternal.lapseAgent a)
  | sweepStart (g : GroupNo) (hready : s.phase = .ready) : Worked s (s.grantInternal.beginSweep g)
  | sweepEnd (hready : s.phase = .ready) : Worked s { s.grantInternal with sweep := none }
  | sweepVisit (i : SlotNo) (r : Record) (w : Sweep) (hready : s.phase = .ready) (hrec : s.record i = some r) :
      Worked s { s.grantInternal.visit i r with sweep := some w }
  | sweepIdle (hready : s.phase = .ready) : Worked s s.grantInternal
  | tickWithin (hready : s.phase = .ready) : Worked s s.expireAll.countDown.expireAll
  | tickApart (hready : s.phase = .ready) : Worked s s.expireAll.countDown
  | keepaliveExpiry (a : Agent) : Worked s (s.setRow a (s.row a).expire)
  | periodExpiry (g : GroupNo) : Worked s (s.setGroup g (s.group g).expire)
  | ackExpiry : Worked s s.expireLink
  | strobeRise (n : StrobeNo) (hready : s.phase = .ready) :
      Worked s { s with
        applyLevels := s.applyLevels.insert n
        groups := s.groups.map fun g => if g.watchesStrobe n then g.raise else g }
  | strobeFall (n : StrobeNo) (hready : s.phase = .ready) : Worked s { s with applyLevels := s.applyLevels.erase n }
  | takeHead (u : Update) (us : List Update) (hready : s.phase = .ready) (hqueue : s.updateQueue = u :: us) :
      Worked s { s with link := .sending u 1, updateQueue := us }
  | endFrame (f : Update) (n : Nat) (hlink : s.link = .sending f n) :
      Worked s { s with link := .awaitAck f n Config.ackTicks, uldat := updateFrame f }
  | acknowledge (f : Update) (n m : Nat) (hlink : s.link = .awaitAck f n m) :
      Worked s { s.setChannel f.channel { (s.channel f.channel) with acked := f.value } with link := .idle }
  | release (low0 low1 : Bool) (hphase : s.phase = .inReset) :
      Worked s { (s.setPort 0 ((s.port 0).atRelease low0)).setPort 1 ((s.port 1).atRelease low1) with
        phase := .initialising }
  | ready (levels : FinSet 4) (hphase : s.phase = .initialising) :
      Worked s { s with phase := .ready, freeList := allSlots, applyLevels := levels }

theorem phase_of_grant {s : State} {c : Claimant} (h : s.grant = some c) : s.phase = .ready ∧ s.engine = .free := by
  unfold State.grant at h
  split at h
  · next hready => exact hready
  · cases h

theorem sweepStepWork_worked (s : State) : s.Worked (sweepStepWork s) := by
  unfold sweepStepWork
  split
  · next h =>
    have hready := (phase_of_grant h.1).1
    split
    · exact .same
    · next w _ =>
      unfold State.sweepOnce
      split
      · exact .sweepEnd hready
      · next i _ =>
        split
        · exact .sweepIdle hready
        · next r hrec => exact .sweepVisit i r _ hready hrec
  · exact .same

/-- Every command of the part's own, seen from the state. -/
theorem exec_own_worked {c : Instr} (hown : OwnCommand c) {s t : State} (h : exec c s = .next t) :
    (c = .nrstAssert ∧ t = resetAssert s) ∨ s.Worked t := by
  by_cases hc : c = .nrstAssert
  · subst hc; cases h; exact .inl ⟨rfl, rfl⟩
  right
  cases hown with
  | lapseItem =>
    obtain rfl : lapseWork s = t := by injection h
    unfold lapseWork
    split
    · next hgrant =>
      split
      · exact .same
      · next a hfirst =>
        have hexpired : (s.row a).expired = true := List.find?_some (p := fun b => (s.row b).expired) hfirst
        exact .lapse a (phase_of_grant hgrant).1 hexpired
    · exact .same
  | sweepStart =>
    obtain rfl : sweepStartWork s = t := by injection h
    unfold sweepStartWork
    split
    · next hgrant =>
      split
      · exact .same
      · exact .sweepStart _ (phase_of_grant hgrant.1).1
    · exact .same
  | sweepStep =>
    obtain rfl : sweepStepWork s = t := by injection h
    exact sweepStepWork_worked s
  | tick e =>
    obtain rfl : ticked e s = t := by injection h
    unfold ticked
    split
    · next hready =>
      cases e
      · exact .tickWithin hready
      · exact .tickApart hready
    · exact .same
  | keepaliveExpiry a => cases h; exact .keepaliveExpiry a
  | periodExpiry g => cases h; exact .periodExpiry g
  | applyStrobeEdge n =>
    obtain rfl : strobeRise n s = t := by injection h
    unfold strobeRise
    split
    · next hready => exact .strobeRise n hready.1
    · exact .same
  | strobeFallingEdge n =>
    obtain rfl : strobeFall n s = t := by injection h
    unfold strobeFall
    split
    · next hready => exact .strobeFall n hready
    · exact .same
  | takeIntoFlight =>
    obtain rfl : takeHead s = t := by injection h
    unfold takeHead
    split
    · next hready =>
      split
      · next u us _ hqueue => exact .takeHead u us hready hqueue
      · exact .same
    · exact .same
  | frameEnd =>
    obtain rfl : endFrame s = t := by injection h
    unfold endFrame
    split
    · next f n hlink => exact .endFrame f n hlink
    · exact .same
  | acknowledge =>
    obtain rfl : acknowledged s = t := by injection h
    unfold acknowledged
    split
    · next f n m hlink => exact .acknowledge f n m hlink
    · exact .same
  | acknowledgeTimerExpiry => cases h; exact .ackExpiry
  | nrstAssert => exact absurd rfl hc
  | nrstRelease low0 low1 =>
    obtain rfl : resetRelease low0 low1 s = t := by injection h
    unfold resetRelease
    split
    · next hphase => exact .release low0 low1 hphase
    · exact .same
  | readyRise levels =>
    obtain rfl : readyRise levels s = t := by injection h
    unfold readyRise
    split
    · next hphase => exact .ready levels hphase
    · exact .same

/-! ### A property of the tables, kept by every command -/

/-- A property of the tables that holds at reset, and that the renewal, every execution and the part's own commands keep,
is kept by every command. -/
theorem exec_keeps {P : State → Prop} (hsame : ∀ {s t}, s.SameTables t → P s → P t)
    (hrenew : ∀ s a, (s.row a).state = .attached → P s → P (s.renew a))
    (hcarried : ∀ {s q k t}, s.phase = .ready → s.Carried q k t → P s → P t) (hworked : ∀ {s t}, s.Worked t → P s → P t)
    (hreset : ∀ s, P (resetAssert s))
    {c : Instr} {s t : State} (h : P s) (hexec : exec c s = .next t) : P t := by
  rcases exec_tables hexec with ht | ⟨k, p, x, f, -, hoffers, ht⟩ | hown
  · exact hsame ht h
  · refine hsame ht ?_
    have htaken : P (s.takeFrom p) := hsame (.takeFrom s p) h
    rcases admission_cases hoffers (carryOf k) with ⟨o, hadm⟩ | ⟨a, -, hattached, o, hadm⟩ | ⟨a, hattach, hadm⟩ |
      ⟨a, hadmits, hadm⟩
    · rw [hadm]; exact htaken
    · rw [hadm]; exact hrenew _ a hattached htaken
    · rw [hadm]
      exact hcarried (s := s.takeFrom p) hoffers.phase.1 (carryOf_carried (.inl hattach)) htaken
    · rw [hadm]
      refine hcarried (s := s.begun p a) hoffers.phase.1 (carryOf_carried (.inr ⟨?_, hadmits.supervisor⟩))
        (hrenew _ a hadmits.attached htaken)
      have hrow : (s.begun p a).row a = (s.row a).renew := State.row_setRow_self _ a _
      show ((s.begun p a).row a).state = .attached
      rw [hrow]
      exact hadmits.attached
  · rcases exec_own_worked hown hexec with ⟨-, rfl⟩ | ht
    · exact hreset s
    · exact hworked ht h

end Sys2Proof.Machine
end

section
/-! PROOF. The law of the limits and the law of the claim queues, kept by every step (R2, R69, R70). -/
namespace Sys2Proof.Machine

/-! ### Properties of the slots, kept by every command -/

/-- A property of the records in the slots, kept by every work on them that a command does. -/
structure SlotsKept (P : State → Prop) : Prop where
  congr : ∀ {s t : State}, P s → t.slots = s.slots → P t
  empty : ∀ {s : State}, (∀ i, s.record i = none) → P s
  touched : ∀ {s t : State} {a : Agent}, s.TouchedBy a t → P s → P t
  dropped : ∀ {s : State} (a : Agent), P s → P (s.dropAgent a)
  freed : ∀ {s : State} (i : SlotNo), P s → P (s.setRecord i none)
  rebound : ∀ {s : State} {i : SlotNo} {r : Record} (b : Option ChannelNo) (v : Revision), s.record i = some r → P s →
    P (s.setRecord i (some { r with binding := b, revision := v }))
  placed : ∀ {s : State} (a : Agent) {o : Byte} {body : List Byte} {f : CreateFields} (i : SlotNo) (rest : List SlotNo),
    parseCreate o body = some f → within f.live f.min f.max = true → within f.safe f.min f.max = true → P s →
      P (s.placeRecord i rest (newRecord a f))

theorem slots_clearSupervisor (s : State) (a : Agent) : (s.clearSupervisor a).slots = s.slots := by
  unfold State.clearSupervisor
  split <;> rfl

theorem slots_recordLoss (s : State) (a : Agent) : (s.recordLoss a).slots = s.slots := by
  unfold State.recordLoss
  split <;> rfl

theorem slots_parkBound (s : State) (b : Option ChannelNo) : (s.parkBound b).slots = s.slots := by
  unfold State.parkBound
  split <;> rfl

theorem slots_setRightsOf (s : State) (b : Agent) (c : ClassNo) (rs : RightSet) :
    (s.setRightsOf b c rs).slots = s.slots := by
  unfold State.setRightsOf
  split <;> rfl

theorem slots_foldl_parkChannel (l : List ChannelNo) (s : State) : (l.foldl State.parkChannel s).slots = s.slots := by
  induction l generalizing s with
  | nil => rfl
  | cons c l ih => rw [List.foldl_cons, ih]; rfl

theorem slots_expireLink (s : State) : s.expireLink.slots = s.slots := by rw [expireLink_eq]

theorem slots_expireAll (s : State) : s.expireAll.slots = s.slots := slots_expireLink _

theorem record_clearStore (s : State) (i : SlotNo) : s.clearStore.record i = none := by
  simp [State.clearStore, State.record]

theorem record_resetAssert (s : State) (i : SlotNo) : (resetAssert s).record i = none := by
  show (State.reset.slots.get i).record = none
  simp [State.reset, Slot.powerOn]

theorem slots_restartAll (s : State) : s.restartAll.slots = s.clearStore.slots :=
  slots_foldl_parkChannel (rankOrder (Config.restartRank s.freeDraws) s.boundChannels) s.clearStore

theorem record_restartAll (s : State) (i : SlotNo) : s.restartAll.record i = none := by
  rw [State.record_congr (slots_restartAll s), record_clearStore]

namespace SlotsKept
variable {P : State → Prop} {s t : State}

/-- A run through slots, each of which is touched or passed over. -/
theorem foldl (hP : SlotsKept P) {a : Agent} {f : State → SlotNo → State}
    (hf : ∀ s i, f s i = s ∨ s.TouchedBy a (f s i)) (l : List SlotNo) (h : P s) : P (l.foldl f s) := by
  induction l generalizing s with
  | nil => exact h
  | cons i l ih =>
    rw [List.foldl_cons]
    rcases hf s i with hsame | htouched
    · rw [hsame]; exact ih h
    · exact ih (hP.touched htouched h)

theorem loseSession (hP : SlotsKept P) (a : Agent) (h : P s) : P (s.loseSession a) :=
  hP.congr (hP.dropped a (hP.congr h (State.setRow_slots s a _))) (slots_clearSupervisor _ a)

theorem lapseAgent (hP : SlotsKept P) (a : Agent) (h : P s) : P (s.lapseAgent a) :=
  hP.congr (hP.foldl (fun s i => lapseStep_touched s a i) _ (hP.loseSession a h)) (slots_recordLoss _ a)

theorem detachAgent (hP : SlotsKept P) (a : Agent) (h : P s) : P (s.detachAgent a) :=
  hP.congr (hP.congr (hP.foldl (fun s i => releaseSlot_touched s a i) _ (hP.dropped a h)) (State.setRow_slots _ a _))
    (slots_clearSupervisor _ a)

theorem carried (hP : SlotsKept P) {q : Request} {k : ReqKind} (ht : s.Carried q k t) (h : P s) : P t := by
  cases ht with
  | same => exact h
  | touched k _ ht => exact hP.touched ht h
  | attach n _ => exact hP.congr h rfl
  | attachOver n _ => exact hP.congr (hP.lapseAgent q.agent h) rfl
  | detach => exact hP.detachAgent q.agent h
  | restart => exact hP.empty (record_restartAll s)
  | setRights b c rs => exact hP.congr h (slots_setRightsOf s b c rs)
  | create f i rest _ hparse _ _ hlive hsafe => exact hP.placed q.agent i rest hparse hlive hsafe h
  | retire hd r hrec =>
    have hpark : P ((s.conditionAll (r.retireTold q.agent) .retired hd r.key).parkBound r.binding) :=
      hP.congr (hP.congr h rfl) (slots_parkBound _ _)
    exact hP.congr (hP.freed hd.slot hpark) rfl
  | apply | setGroup | setParkBound | setParkUnbound | linkResume => exact hP.congr h rfl
  | fetchAttention => exact hP.congr h ((slots_clearSupervisor _ _).trans rfl)
  | bind c hd r hrec _ _ => exact hP.congr (hP.rebound (some c) (r.revision + 1) hrec h) rfl
  | unbind c i _ =>
    unfold State.unbindRecord
    split
    · exact hP.congr h rfl
    · next r hrec => exact hP.congr (hP.rebound none (r.revision + 1) hrec h) rfl

theorem worked (hP : SlotsKept P) (ht : s.Worked t) (h : P s) : P t := by
  cases ht with
  | same => exact h
  | lapse a _ _ => exact hP.lapseAgent a (hP.congr h (State.grantInternal_slots s))
  | sweepVisit i r w _ hrec =>
    rcases visit_touched (s := s.grantInternal) hrec 0 with hsame | htouched
    · exact hP.congr h (by rw [hsame]; rfl)
    · exact hP.congr (hP.touched htouched (hP.congr h rfl)) rfl
  | tickWithin =>
    exact hP.congr h (((slots_expireAll _).trans rfl).trans (slots_expireAll s))
  | tickApart => exact hP.congr h (slots_expireAll s)
  | ackExpiry => exact hP.congr h (slots_expireLink s)
  | _ => exact hP.congr h rfl

theorem exec (hP : SlotsKept P) {c : Instr} (h : P s) (hexec : Machine.exec c s = .next t) : P t :=
  exec_keeps (fun hsame h => hP.congr h hsame.slots) (fun _ _ _ h => hP.congr h rfl) (fun _ => hP.carried) hP.worked
    (fun s => hP.empty (record_resetAssert s)) h hexec

theorem step (hP : SlotsKept P) (h : P s) (hstep : Machine.step s = .next t) : P t :=
  step_keeps (fun _ _ h => hP.congr h rfl) (fun _ _ _ => hP.exec) h hstep

end SlotsKept

/-! ### The records of the slots -/

/-- A property of records that every work on one record keeps. -/
theorem forall_record_touchedBy {Q : Record → Prop} (hQ : ∀ {a r r'}, Record.Step a r r' → Q r → Q r') {s t : State}
    {a : Agent} (ht : s.TouchedBy a t) (h : ∀ i r, s.record i = some r → Q r) : ∀ i r, t.record i = some r → Q r := by
  obtain ⟨i, r, r', htouch, hstep, -⟩ := ht
  intro j x hx
  rw [htouch.record_eq] at hx
  split at hx
  · cases hx; exact hQ hstep (h i r htouch.record)
  · exact h j x hx

theorem record_placeRecord (s : State) (i j : SlotNo) (rest : List SlotNo) (r : Record) :
    (s.placeRecord i rest r).record j = if i = j then some r else s.record j := by
  unfold State.placeRecord State.record
  simp only [Tab.get_set]
  split <;> rfl

theorem forall_record_setRecord {Q : Record → Prop} {s : State} {i : SlotNo} {x : Option Record}
    (hx : ∀ r, x = some r → Q r) (h : ∀ j r, s.record j = some r → Q r) :
    ∀ j r, (s.setRecord i x).record j = some r → Q r := by
  intro j r hr
  rw [State.record_setRecord] at hr
  split at hr
  · exact hx r hr
  · exact h j r hr

theorem forall_record_dropAgent {Q : Record → Prop} (hQ : ∀ a r, Q r → Q (r.dropAgent a)) {s : State} (a : Agent)
    (h : ∀ j r, s.record j = some r → Q r) : ∀ j r, (s.dropAgent a).record j = some r → Q r := by
  intro j r hr
  rw [record_dropAgent, Option.map_eq_some_iff] at hr
  obtain ⟨x, hx, rfl⟩ := hr
  exact hQ a x (h j x hx)

/-! ### The law of the limits (R2) -/

theorem Record.Step.limitsLaw {a : Agent} {r r' : Record} (hstep : Record.Step a r r') (h : r.LimitsLaw) :
    r'.LimitsLaw := by
  obtain ⟨hlim, hlive, hsafe, hstaged⟩ := h
  cases hstep with
  | passOn =>
    rcases passOn_cases r with ⟨-, h⟩ | ⟨w, ws, -, h⟩ <;> rw [h] <;> exact ⟨hlim, hlive, hsafe, by simp⟩
  | afterLapse t =>
    have hlapsed : within (r.afterLapse t).live r.min r.max = true := by
      rw [afterLapse_live]
      by_cases hto : r.LapsesToSafe t
      · rw [lapsePolicy_live_of_toSafe hto]; exact hsafe
      · rw [lapsePolicy_live_of_not_toSafe hto]; exact hlive
    rw [afterLapse_frame]
    exact ⟨hlim, hlapsed, hsafe, by simp⟩
  | grantNow | unstage => exact ⟨hlim, hlive, hsafe, by simp [Record.grantNow]⟩
  | stageWaiting v hv => exact ⟨hlim, hlive, hsafe, by simp [Record.stageWaiting]; exact hv⟩
  | stageNow v hv => exact ⟨hlim, hv, hsafe, by simp [Record.stageNow]⟩
  | tuned f hlaw => exact hlaw
  | tunedApplied f hlaw happ => exact hlaw.applyWork happ
  | swept happ =>
    have happlied := Record.LimitsLaw.applyWork ⟨hlim, hlive, hsafe, hstaged⟩ happ
    exact happlied
  | wait | cancelClaim | restore | watch | unwatch => exact ⟨hlim, hlive, hsafe, hstaged⟩

/-- The field check of CREATE leaves no minimum above the maximum (R14). -/
theorem limits_of_parseCreate {o : Byte} {body : List Byte} {f : CreateFields} (h : parseCreate o body = some f) :
    f.min.sle f.max = true := by
  unfold parseCreate at h
  split at h
  · split at h
    · split at h
      · cases h
      · next hlim =>
        cases h
        rw [BitVec.sle_eq_not_slt]
        simpa using (not_or.1 hlim).2
    · cases h
  · cases h

theorem slotsKept_limitsLaw : SlotsKept State.LimitsLaw where
  congr h hslots i r hr := h i r ((State.record_congr hslots i).symm.trans hr)
  empty hnone i r hr := by rw [hnone] at hr; cases hr
  touched ht h := forall_record_touchedBy Record.Step.limitsLaw ht h
  dropped a h := forall_record_dropAgent (Q := Record.LimitsLaw) (fun _ _ hr => hr) a h
  freed i h := forall_record_setRecord (fun r hr => by cases hr) h
  rebound b v hrec h := by
    have hlaw := h _ _ hrec
    exact forall_record_setRecord (fun r hr => by cases hr; exact hlaw) h
  placed a _ _ f i rest hparse hlive hsafe h j r hr := by
    rw [record_placeRecord] at hr
    split at hr
    · cases hr; exact ⟨limits_of_parseCreate hparse, hlive, hsafe, by simp [newRecord]⟩
    · exact h j r hr

/-! ### The law of the claim queues (R69, R70) -/

theorem Record.QueueLaw.congr {r r' : Record} (h : r.QueueLaw) (hstate : r'.state = r.state)
    (hqueue : r'.queue = r.queue) : r'.QueueLaw := by
  unfold Record.QueueLaw
  rw [hstate, hqueue]
  exact h

theorem queueLaw_of_empty {r : Record} (h : r.queue = []) : r.QueueLaw := by
  simp [Record.QueueLaw, h]

/-- The head waiter gone to be the owner, the rest of the queue stays lawful. -/
theorem Record.QueueLaw.tail {r r' : Record} {w : Agent} {ws : List Agent} (h : r.QueueLaw) (hqueue : r.queue = w :: ws)
    (hstate' : r'.state = .held w) (hqueue' : r'.queue = ws) : r'.QueueLaw := by
  obtain ⟨hlen, hnodup, -, -⟩ := h
  rw [hqueue] at hlen hnodup
  obtain ⟨hw, hws⟩ := List.nodup_cons.1 hnodup
  simp only [Record.QueueLaw, hstate', hqueue']
  refine ⟨by simp at hlen; omega, hws, fun b hb heq => ?_, fun _ => ⟨w, rfl⟩⟩
  cases heq
  exact hw hb

/-- A part of the queue, in its order, stays lawful under the same owner. -/
theorem Record.QueueLaw.sublist {r r' : Record} (h : r.QueueLaw) (hstate : r'.state = r.state)
    (hqueue : r'.queue.Sublist r.queue) : r'.QueueLaw := by
  obtain ⟨hlen, hnodup, howner, hheld⟩ := h
  simp only [Record.QueueLaw, hstate]
  refine ⟨hqueue.length_le.trans hlen, hqueue.nodup hnodup, fun b hb => howner b (hqueue.subset hb), fun hne => ?_⟩
  refine hheld fun hnil => hne ?_
  rw [hnil] at hqueue
  exact List.sublist_nil.1 hqueue

theorem Record.QueueLaw.empty_of_not_held {r : Record} (h : r.QueueLaw) (hfree : ∀ o, r.state ≠ .held o) :
    r.queue = [] := by
  by_contra hne
  obtain ⟨o, ho⟩ := h.2.2.2 hne
  exact hfree o ho

theorem Record.Step.queueLaw {a : Agent} {r r' : Record} (hstep : Record.Step a r r') (h : r.QueueLaw) :
    r'.QueueLaw := by
  cases hstep with
  | passOn =>
    rcases passOn_cases r with ⟨hq, hr⟩ | ⟨w, ws, hq, hr⟩
    · exact queueLaw_of_empty (by rw [hr]; exact hq)
    · exact h.tail hq (by rw [hr]) (by rw [hr])
  | afterLapse t =>
    rcases afterLapse_cases r t with ⟨-, -, hq'⟩ | ⟨w, ws, hq, hstate', hq'⟩
    · exact queueLaw_of_empty hq'
    · exact h.tail hq hstate' hq'
  | grantNow hfree => exact queueLaw_of_empty (h.empty_of_not_held hfree)
  | restore hlapsed => exact queueLaw_of_empty (h.empty_of_not_held fun o ho => by rw [hlapsed] at ho; cases ho)
  | wait o hheld hother hout hroom =>
    obtain ⟨hlen, hnodup, howner, -⟩ := h
    refine ⟨by simp; omega, ?_, fun b hb heq => ?_, fun _ => ⟨o, hheld⟩⟩
    · simp only [List.nodup_append, hnodup, true_and]
      exact ⟨List.nodup_singleton a, fun b hb c hc hbc => hout (by simp at hc; rwa [← hc, ← hbc])⟩
    · rcases List.mem_append.1 hb with hb | hb
      · exact howner b hb heq
      · rw [List.mem_singleton.1 hb] at heq
        have : r.state = .held a := heq
        rw [hheld] at this
        cases this
        exact hother rfl
  | cancelClaim => exact h.sublist rfl (List.erase_sublist)
  | tunedApplied f _ happ => obtain ⟨v, rfl⟩ := applyWork_frame happ; exact h.congr rfl rfl
  | swept happ => obtain ⟨v, rfl⟩ := applyWork_frame happ; exact h.congr rfl rfl
  | stageWaiting | stageNow | unstage | tuned | watch | unwatch => exact h.congr rfl rfl

/-- The claim entries of one slot. -/
def queueLength : Option Record → Nat
  | some r => r.queue.length
  | none => 0

theorem claimsInUse_eq_sum (s : State) : s.claimsInUse = ∑ i, queueLength (s.record i) := by
  rw [Fin.sum_univ_def]
  rfl

theorem claimsInUse_le {s t : State} (h : ∀ i, queueLength (t.record i) ≤ queueLength (s.record i)) :
    t.claimsInUse ≤ s.claimsInUse := by
  rw [claimsInUse_eq_sum, claimsInUse_eq_sum]
  exact Finset.sum_le_sum fun i _ => h i

/-- One entry more in one slot is at most one entry more in use. -/
theorem claimsInUse_le_succ {s t : State} (i : SlotNo)
    (h : ∀ j, queueLength (t.record j) ≤ queueLength (s.record j) + if j = i then 1 else 0) :
    t.claimsInUse ≤ s.claimsInUse + 1 := by
  rw [claimsInUse_eq_sum, claimsInUse_eq_sum]
  refine (Finset.sum_le_sum fun j _ => h j).trans ?_
  simp [Finset.sum_add_distrib]

theorem claimsInUse_touchedBy {s t : State} {a : Agent} (ht : s.TouchedBy a t) (h : s.claimsInUse ≤ 64) :
    t.claimsInUse ≤ 64 := by
  obtain ⟨i, r, r', htouch, -, hlen | ⟨rfl, hroom⟩⟩ := ht
  · refine (claimsInUse_le fun j => ?_).trans h
    rw [htouch.record_eq]
    split
    · next hj => subst hj; rw [htouch.record]; exact hlen
    · exact le_rfl
  · refine (claimsInUse_le_succ i fun j => ?_).trans hroom
    rw [htouch.record_eq]
    by_cases hj : i = j
    · subst hj; simp [htouch.record, queueLength]
    · simp [hj]

theorem slotsKept_queueLaw : SlotsKept State.QueueLaw where
  congr h hslots :=
    ⟨fun i r hr => h.1 i r ((State.record_congr hslots i).symm.trans hr),
      (claimsInUse_le fun i => by rw [State.record_congr hslots]).trans h.2⟩
  empty {s} hnone := by
    refine ⟨fun i r hr => (by rw [hnone] at hr; cases hr), ?_⟩
    simp [claimsInUse_eq_sum, hnone, queueLength]
  touched ht h := ⟨forall_record_touchedBy Record.Step.queueLaw ht h.1, claimsInUse_touchedBy ht h.2⟩
  dropped {s} a h := by
    refine ⟨forall_record_dropAgent (fun a r hr => hr.sublist rfl List.filter_sublist) a h.1,
      (claimsInUse_le fun i => ?_).trans h.2⟩
    rw [record_dropAgent]
    cases s.record i with
    | none => exact le_rfl
    | some r => exact List.length_filter_le _ _
  freed {s} i h := by
    refine ⟨forall_record_setRecord (fun r hr => by cases hr) h.1, (claimsInUse_le fun j => ?_).trans h.2⟩
    rw [State.record_setRecord]
    split
    · exact Nat.zero_le _
    · exact le_rfl
  rebound {s i r} b v hrec h := by
    refine ⟨forall_record_setRecord (fun x hx => by cases hx; exact (h.1 i r hrec).congr rfl rfl) h.1,
      (claimsInUse_le fun j => ?_).trans h.2⟩
    rw [State.record_setRecord]
    split
    · next hj => subst hj; rw [hrec]; exact le_rfl
    · exact le_rfl
  placed {s} a _ _ f i rest _ _ _ h := by
    refine ⟨fun j r hr => ?_, (claimsInUse_le fun j => ?_).trans h.2⟩
    · rw [record_placeRecord] at hr
      split at hr
      · cases hr; exact queueLaw_of_empty rfl
      · exact h.1 j r hr
    · rw [record_placeRecord]
      split
      · exact Nat.zero_le _
      · exact le_rfl

/-! ### The obligations -/

/-- Settles O6: no step of one record breaks its limits, and a new record's values were tested against them. -/
theorem limitsLawKeptByEveryStep : Obligations.LimitsLawKeptByEveryStep :=
  fun _ _ h hstep => slotsKept_limitsLaw.step h hstep

/-- Settles O7: no step of one record breaks its queue, and a queue grows by one entry where the pool has one free. -/
theorem queueLawKeptByEveryStep : Obligations.QueueLawKeptByEveryStep :=
  fun _ _ h hstep => slotsKept_queueLaw.step h hstep

end Sys2Proof.Machine
end

section
/-! PROOF. What changes a rights set and an incarnation (R7, R16, R30, R32), and the size of the free-slot list and the
key index together (R12). -/
namespace Sys2Proof.Machine

/-! ### The rights and the incarnations -/

/-- The rights sets and the slots' incarnations stay. -/
structure State.SameNaming (s t : State) : Prop where
  rights : t.rights = s.rights
  inc : ∀ i, (t.slots.get i).inc = (s.slots.get i).inc

namespace State.SameNaming
variable {s t u : State}

theorem refl (s : State) : s.SameNaming s := ⟨rfl, fun _ => rfl⟩
theorem trans (h : s.SameNaming t) (g : t.SameNaming u) : s.SameNaming u :=
  ⟨g.rights.trans h.rights, fun i => (g.inc i).trans (h.inc i)⟩
theorem of_eq (hrights : t.rights = s.rights) (hslots : t.slots = s.slots) : s.SameNaming t :=
  ⟨hrights, fun i => by rw [hslots]⟩
theorem of_around (h : s.SameAround t) : s.SameNaming t := ⟨h.rights, h.inc⟩
theorem of_tables (h : s.SameTables t) : s.SameNaming t := of_eq h.rights h.slots

theorem touchedBy {a : Agent} (h : s.TouchedBy a t) : s.SameNaming t := by
  obtain ⟨i, r, r', htouch, -⟩ := h
  exact of_around htouch.around

theorem eqs (h : s.SameNaming t) (hrights : u.rights = t.rights) (hslots : u.slots = t.slots) : s.SameNaming u :=
  h.trans (of_eq hrights hslots)

theorem setRow (h : s.SameNaming t) (a : Agent) (r : AgentRow) : s.SameNaming (t.setRow a r) := h.eqs rfl rfl

theorem dropAgent (h : s.SameNaming t) (a : Agent) : s.SameNaming (t.dropAgent a) :=
  h.trans ⟨rfl, fun i => by simp [State.dropAgent]⟩

theorem clearSupervisor (h : s.SameNaming t) (a : Agent) : s.SameNaming (t.clearSupervisor a) := by
  refine h.eqs ?_ (slots_clearSupervisor t a)
  unfold State.clearSupervisor
  split <;> rfl

theorem recordLoss (h : s.SameNaming t) (a : Agent) : s.SameNaming (t.recordLoss a) := by
  refine h.eqs ?_ (slots_recordLoss t a)
  unfold State.recordLoss
  split <;> rfl

theorem lapseAgent (h : s.SameNaming t) (a : Agent) : s.SameNaming (t.lapseAgent a) := by
  have hlose : s.SameNaming (t.loseSession a) := ((h.setRow a _).dropAgent a).clearSupervisor a
  exact (hlose.trans (of_around (.foldl .lapseStep _ _))).recordLoss a

theorem detachAgent (h : s.SameNaming t) (a : Agent) : s.SameNaming (t.detachAgent a) := by
  have hreleased := (h.dropAgent a).trans (of_around (.foldl (.releaseSlot a) ((t.dropAgent a).heldSlots a) _))
  exact (hreleased.setRow a _).clearSupervisor a

theorem restartAll (s : State) : s.SameNaming s.restartAll := by
  have hparked : ∀ (l : List ChannelNo) (u : State), (l.foldl State.parkChannel u).rights = u.rights := by
    intro l
    induction l with
    | nil => exact fun _ => rfl
    | cons c l ih => exact fun u => (ih _).trans rfl
  refine ⟨hparked _ _, fun i => ?_⟩
  rw [slots_restartAll]
  simp [State.clearStore]

theorem parkBound (h : s.SameNaming t) (b : Option ChannelNo) : s.SameNaming (t.parkBound b) := by
  refine h.eqs ?_ (slots_parkBound t b)
  unfold State.parkBound
  split <;> rfl

theorem setRecord (h : s.SameNaming t) (i : SlotNo) (r : Option Record) : s.SameNaming (t.setRecord i r) :=
  h.trans (of_around (.setRecord t i r))

theorem dismantle (h : s.SameNaming t) (i : SlotNo) (r : Record) : s.SameNaming (t.dismantle i r) :=
  ((h.parkBound r.binding).setRecord i none).eqs rfl rfl

theorem expireAll (h : s.SameNaming t) : s.SameNaming t.expireAll := by
  refine h.eqs ?_ (slots_expireAll t)
  unfold State.expireAll
  rw [expireLink_eq]

theorem worked (h : s.Worked t) : s.SameNaming t := by
  have hgrant : s.SameNaming s.grantInternal := of_eq rfl rfl
  cases h with
  | lapse a _ _ => exact hgrant.lapseAgent a
  | sweepVisit i r w _ hrec =>
    rcases visit_touched (s := s.grantInternal) hrec 0 with hsame | htouched
    · exact of_eq (by rw [hsame]; rfl) (by rw [hsame]; rfl)
    · exact (hgrant.trans (touchedBy htouched)).eqs rfl rfl
  | tickWithin =>
    have hcounted : s.SameNaming s.expireAll.countDown := (refl s).expireAll.eqs rfl rfl
    exact hcounted.expireAll
  | tickApart => exact (refl s).expireAll.eqs rfl rfl
  | ackExpiry => exact of_eq (by rw [expireLink_eq]) (slots_expireLink s)
  | _ => exact of_eq rfl rfl

end State.SameNaming

/-- Past its session checks a request changes a rights set by SET_RIGHTS alone, and an incarnation by CREATE alone, that
of the slot at the head of the free-slot list, by one. -/
theorem carried_naming {s t : State} {q : Request} {k : ReqKind} (h : s.Carried q k t) :
    (t.rights = s.rights ∨ k = .setRights)
      ∧ ∀ i, (t.slots.get i).inc = (s.slots.get i).inc
          ∨ (k = .create ∧ s.freeList.head? = some i ∧ (t.slots.get i).inc = (s.slots.get i).inc + 1) := by
  have hkept : s.SameNaming t → (t.rights = s.rights ∨ k = .setRights)
      ∧ ∀ i, (t.slots.get i).inc = (s.slots.get i).inc
          ∨ (k = .create ∧ s.freeList.head? = some i ∧ (t.slots.get i).inc = (s.slots.get i).inc + 1) :=
    fun hsame => ⟨.inl hsame.rights, fun i => .inl (hsame.inc i)⟩
  cases h with
  | same => exact hkept (.refl s)
  | touched k _ ht => exact hkept (.touchedBy ht)
  | attachOver n _ => exact hkept (((State.SameNaming.refl s).lapseAgent q.agent).setRow q.agent _)
  | detach => exact hkept ((State.SameNaming.refl s).detachAgent q.agent)
  | restart => exact hkept (.restartAll s)
  | setRights b c rs => exact ⟨.inr rfl, fun i => .inl (by rw [slots_setRightsOf])⟩
  | create f i rest _ _ _ hfree _ _ =>
    refine ⟨.inl rfl, fun j => ?_⟩
    by_cases hj : i = j
    · subst hj
      refine .inr ⟨rfl, by rw [hfree]; rfl, ?_⟩
      simp [State.placeRecord]
    · exact .inl (by simp [State.placeRecord, hj])
  | retire hd r _ =>
    have htold : s.SameNaming (s.conditionAll (r.retireTold q.agent) .retired hd r.key) := .of_eq rfl rfl
    exact hkept (htold.dismantle hd.slot r)
  | fetchAttention => exact hkept (((State.SameNaming.refl s).setRow q.agent _).clearSupervisor q.agent)
  | bind c hd r _ _ _ => exact hkept (((State.SameNaming.refl s).setRecord hd.slot _).eqs rfl rfl)
  | unbind c i _ =>
    refine hkept ?_
    unfold State.unbindRecord
    split
    · exact .of_eq rfl rfl
    · exact ((State.SameNaming.refl s).setRecord i _).eqs rfl rfl
  | _ => exact hkept (.of_eq rfl rfl)

/-- So does any command, but for the assertion of nRST. -/
theorem exec_naming {c : Instr} {s t : State} (h : exec c s = .next t) (hc : c ≠ .nrstAssert) :
    (t.rights = s.rights ∨ ∃ p x, c = .setRights p x)
      ∧ ∀ i, (t.slots.get i).inc = (s.slots.get i).inc
          ∨ ((∃ p x, c = .create p x) ∧ s.freeList.head? = some i ∧ (t.slots.get i).inc = (s.slots.get i).inc + 1) := by
  have hkept : s.SameNaming t → (t.rights = s.rights ∨ ∃ p x, c = .setRights p x)
      ∧ ∀ i, (t.slots.get i).inc = (s.slots.get i).inc
          ∨ ((∃ p x, c = .create p x) ∧ s.freeList.head? = some i ∧ (t.slots.get i).inc = (s.slots.get i).inc + 1) :=
    fun hsame => ⟨.inl hsame.rights, fun i => .inl (hsame.inc i)⟩
  rcases exec_tables h with ht | ⟨k, p, x, f, rfl, hoffers, ht⟩ | hown
  · exact hkept (.of_tables ht)
  · have hcarried : ∀ {u v : State} {q : Request}, u.rights = s.rights → u.slots = s.slots → u.freeList = s.freeList →
        u.Carried q k v → (v.rights = s.rights ∨ ∃ p' x', requestInstr k p x = .setRights p' x')
          ∧ ∀ i, (v.slots.get i).inc = (s.slots.get i).inc
            ∨ ((∃ p' x', requestInstr k p x = .create p' x') ∧ s.freeList.head? = some i
                ∧ (v.slots.get i).inc = (s.slots.get i).inc + 1) := by
      intro u v q hrights hslots hfree hv
      obtain ⟨hr, hi⟩ := carried_naming hv
      rw [hrights] at hr
      rw [hslots, hfree] at hi
      refine ⟨hr.imp_right fun hk => ⟨p, x, by rw [hk]; rfl⟩, fun i => (hi i).imp_right fun ⟨hk, hinc⟩ => ?_⟩
      exact ⟨⟨p, x, by rw [hk]; rfl⟩, hinc⟩
    rw [ht.rights, ht.slots]
    rcases admission_cases hoffers (carryOf k) with ⟨o, hadm⟩ | ⟨a, -, -, o, hadm⟩ | ⟨a, hattach, hadm⟩ |
      ⟨a, hadmits, hadm⟩
    · rw [hadm]; exact ⟨.inl rfl, fun _ => .inl rfl⟩
    · rw [hadm]; exact ⟨.inl rfl, fun _ => .inl rfl⟩
    · rw [hadm]
      exact hcarried (u := s.takeFrom p) rfl rfl rfl (carryOf_carried (.inl hattach))
    · rw [hadm]
      refine hcarried (u := s.begun p a) rfl rfl rfl (carryOf_carried (.inr ⟨?_, hadmits.supervisor⟩))
      have hrow : (s.begun p a).row a = (s.row a).renew := State.row_setRow_self _ a _
      show ((s.begun p a).row a).state = .attached
      rw [hrow]
      exact hadmits.attached
  · rcases exec_own_worked hown h with ⟨hassert, -⟩ | hworked
    · exact absurd hassert hc
    · exact hkept (.worked hworked)

/-! ### The slots, counted (R12) -/

/-- Under the law of the store no slot stands in the index twice. -/
theorem nodup_indexed_slots {s : State} (h : s.StoreLaw) : (s.keyIndex.map (·.2)).Nodup := by
  obtain ⟨hsorted, hindex, -⟩ := h
  rw [List.nodup_iff_pairwise_ne, List.pairwise_map]
  refine hsorted.imp_of_mem fun {e g} he hg hlt heq => ?_
  obtain ⟨r, hr, hkey⟩ := (hindex e.1 e.2).1 he
  obtain ⟨r', hr', hkey'⟩ := (hindex g.1 g.2).1 hg
  rw [heq, hr'] at hr
  cases hr
  rw [← hkey, ← hkey'] at hlt
  exact lt_irrefl _ hlt

theorem mem_indexed_slots {s : State} (h : s.StoreLaw) (i : SlotNo) :
    i ∈ s.keyIndex.map (·.2) ↔ s.record i ≠ none := by
  obtain ⟨-, hindex, -⟩ := h
  rw [List.mem_map, Option.ne_none_iff_exists']
  constructor
  · rintro ⟨⟨k, j⟩, hmem, rfl⟩
    obtain ⟨r, hr, -⟩ := (hindex k j).1 hmem
    exact ⟨r, hr⟩
  · rintro ⟨r, hr⟩
    exact ⟨(r.key, i), (hindex r.key i).2 ⟨r, hr, rfl⟩, rfl⟩

/-! ### The obligations -/

/-- Settles O9: the requests but SET_RIGHTS, the events of a port and the part's own commands leave the rights. -/
theorem rightsChangedBySetRightsAlone : Obligations.RightsChangedBySetRightsAlone := by
  intro c s t h
  by_cases hc : c = .nrstAssert
  · exact .inr (.inl hc)
  · exact (exec_naming h hc).1.imp_right .inr

/-- Settles O10: a slot's incarnation stays with the slot, whatever is written there, but where CREATE places a
record. -/
theorem incarnationAdvancesAtCreateAlone : Obligations.IncarnationAdvancesAtCreateAlone := by
  intro c s t i h
  by_cases hc : c = .nrstAssert
  · exact .inr (.inl hc)
  · exact ((exec_naming h hc).2 i).imp_right .inr

/-- Settles O8: each slot stands once in one of the two, in the list when it is FREE and in the index when it is not. -/
theorem freeListAndIndexFillTheStore : Obligations.FreeListAndIndexFillTheStore := by
  intro s h hready
  obtain ⟨hnodup, hfree⟩ := h.2.2.2.1 hready
  have hboth : (s.freeList ++ s.keyIndex.map (·.2)).Nodup := by
    refine List.nodup_append.2 ⟨hnodup, nodup_indexed_slots h, fun i hi j hj hij => ?_⟩
    subst hij
    exact (mem_indexed_slots h i).1 hj ((hfree i).1 hi)
  have hall : ∀ i, i ∈ s.freeList ++ s.keyIndex.map (·.2) := fun i => by
    rw [List.mem_append, hfree, mem_indexed_slots h]
    exact em _
  have hperm := (List.perm_ext_iff_of_nodup hboth (List.nodup_finRange 256)).2 fun i => by
    simp only [hall i, List.mem_finRange]
  simpa using hperm.length_eq

end Sys2Proof.Machine
end

section
/-! PROOF. The laws of the manual at reset, and the laws of the groups, the update link, the attention lists and the
sessions, kept by every command (R46, R64, R106, R109, R130, R147). -/
namespace Sys2Proof.Machine

/-! ### Reading a table after a write -/

theorem State.row_setRow (s : State) (a b : Agent) (r : AgentRow) :
    (s.setRow a r).row b = if a = b then r else s.row b := by
  by_cases h : a = b
  · subst h; simp
  · simp [h]

theorem State.group_setGroup (s : State) (g j : GroupNo) (r : Group) :
    (s.setGroup g r).group j = if g = j then r else s.group j := by
  by_cases h : g = j
  · subst h; simp
  · simp [h]

theorem State.channel_setChannel (s : State) (c d : ChannelNo) (r : Channel) :
    (s.setChannel c r).channel d = if c = d then r else s.channel d := by
  by_cases h : c = d
  · subst h; simp
  · simp [h]

theorem State.row_congr {s t : State} (h : t.agents = s.agents) (a : Agent) : t.row a = s.row a := by
  rw [State.row, h, State.row]

theorem State.group_congr {s t : State} (h : t.groups = s.groups) (g : GroupNo) : t.group g = s.group g := by
  rw [State.group, h, State.group]

theorem State.channel_congr {s t : State} (h : t.channels = s.channels) (c : ChannelNo) :
    t.channel c = s.channel c := by
  rw [State.channel, h, State.channel]

/-! ### What the supervisor's flags and parked channels are apart from -/

theorem clearSupervisor_frame (s : State) (a : Agent) : s.clearSupervisor a =
    { s with linkStalled := (s.clearSupervisor a).linkStalled, lostAgents := (s.clearSupervisor a).lostAgents } := by
  unfold State.clearSupervisor
  split <;> rfl

theorem recordLoss_frame (s : State) (a : Agent) :
    s.recordLoss a = { s with lostAgents := (s.recordLoss a).lostAgents } := by
  unfold State.recordLoss
  split <;> rfl

theorem parkBound_frame (s : State) (b : Option ChannelNo) : s.parkBound b =
    { s with channels := (s.parkBound b).channels, updateQueue := (s.parkBound b).updateQueue } := by
  unfold State.parkBound
  split <;> rfl

theorem foldl_parkChannel_frame (l : List ChannelNo) (s : State) : l.foldl State.parkChannel s =
    { s with
      channels := (l.foldl State.parkChannel s).channels
      updateQueue := (l.foldl State.parkChannel s).updateQueue } := by
  induction l generalizing s with
  | nil => rfl
  | cons c l ih => rw [List.foldl_cons, ih]; rfl

/-- The state once a RESTART has cleared the store and parked every bound channel, in the order of the free ranking. -/
def State.parkAll (s : State) : State :=
  (rankOrder (Config.restartRank s.freeDraws) s.boundChannels).foldl State.parkChannel s.clearStore

theorem restartAll_frame (s : State) : s.restartAll =
    { s with
      slots := s.clearStore.slots
      keyIndex := []
      freeList := allSlots
      agents := s.agents.mapFin AgentRow.restart
      linkStalled := false
      lostAgents := FinSet.empty 8
      groups := s.groups.map fun g => ({ g with pending := false } : Group).load
      sweep := none
      channels := s.parkAll.channels
      updateQueue := s.parkAll.updateQueue
      freeDraws := s.freeDraws + 1 } := by
  have hpark : s.parkAll = { s.clearStore with
      channels := s.parkAll.channels, updateQueue := s.parkAll.updateQueue } := foldl_parkChannel_frame _ _
  show ({ s.parkAll with
    agents := s.parkAll.agents.mapFin AgentRow.restart
    linkStalled := false
    lostAgents := FinSet.empty 8
    groups := s.parkAll.groups.map fun g => ({ g with pending := false } : Group).load
    sweep := none
    freeDraws := s.freeDraws + 1 } : State) = _
  rw [hpark]
  simp only [State.clearStore]

theorem setRightsOf_frame (s : State) (b : Agent) (c : ClassNo) (rs : RightSet) :
    s.setRightsOf b c rs = { s with rights := (s.setRightsOf b c rs).rights } := by
  unfold State.setRightsOf
  split <;> rfl

theorem unbindRecord_frame (s : State) (i : SlotNo) : s.unbindRecord i = { s with slots := (s.unbindRecord i).slots } := by
  unfold State.unbindRecord
  split <;> rfl

/-- A run through slots, each of which is touched or passed over, keeps what a touch keeps. -/
theorem foldl_keeps {P : State → Prop} {a : Agent} (htouched : ∀ {s t}, s.TouchedBy a t → P s → P t)
    {f : State → SlotNo → State} (hf : ∀ s i, f s i = s ∨ s.TouchedBy a (f s i)) (l : List SlotNo) {s : State}
    (h : P s) : P (l.foldl f s) := by
  induction l generalizing s with
  | nil => exact h
  | cons i l ih =>
    rw [List.foldl_cons]
    rcases hf s i with hsame | ht
    · rw [hsame]; exact ih h
    · exact ih (htouched ht h)

/-! ### The laws at the power-on values -/

/-- Every table stands at its power-on value (R28, R32, R48, R106, R139). -/
structure State.PoweredOn (s : State) : Prop where
  slots : s.slots = State.reset.slots
  keyIndex : s.keyIndex = []
  agents : s.agents = State.reset.agents
  linkStalled : s.linkStalled = false
  lostAgents : s.lostAgents = FinSet.empty 8
  groups : s.groups = State.reset.groups
  channels : s.channels = State.reset.channels
  updateQueue : s.updateQueue = []
  link : s.link = .idle

namespace State.PoweredOn
variable {s : State} (h : s.PoweredOn)
include h

theorem record (i : SlotNo) : s.record i = none := by
  rw [State.record, h.slots]
  exact congrArg Slot.record (Tab.get_replicate Slot.powerOn i)

theorem row (a : Agent) : s.row a = AgentRow.powerOn := by
  rw [State.row, h.agents]
  exact Tab.get_replicate _ a

theorem group (g : GroupNo) : s.group g = Group.powerOn := by
  rw [State.group, h.groups]
  exact Tab.get_replicate _ g

theorem channel (c : ChannelNo) : s.channel c = Channel.powerOn := by
  rw [State.channel, h.channels]
  exact Tab.get_replicate _ c

theorem laws (hready : s.phase = .ready → s.freeList = allSlots) (hports : s.PortLaw) (hquiet : s.QuietLaw) :
    s.Laws where
  limits := slotsKept_limitsLaw.empty h.record
  queues := slotsKept_queueLaw.empty h.record
  store := by
    refine ⟨by simp [h.keyIndex], by simp [h.keyIndex, h.record], by simp [h.record], fun hphase => ?_,
      fun _ => h.record⟩
    rw [hready hphase]
    exact ⟨List.nodup_finRange _, by simp [allSlots, h.record]⟩
  members := by intro i r hr; rw [h.record] at hr; cases hr
  sessions := by
    refine ⟨fun a => ?_, fun _ => ⟨h.linkStalled, h.lostAgents⟩, by simp [h.lostAgents]⟩
    simp [h.row, AgentRow.powerOn]
  attention := by intro a; simp [h.row, AgentRow.powerOn]
  bindings := ⟨by simp [h.channel, h.record, Channel.powerOn], by simp [h.record], by simp [h.channel, Channel.powerOn]⟩
  link := ⟨by simp [h.updateQueue], by simp [h.link, Link.Law]⟩
  ports := hports
  groups := by intro g; simp [h.group, Group.powerOn, Config.powerOnPeriod]
  quiet := hquiet

end State.PoweredOn

theorem port_resetAssert (s : State) (p : PortId) : (resetAssert s).port p = Port.powerOn := Tab.get_replicate _ p

theorem laws_resetAssert (s : State) : (resetAssert s).Laws := by
  refine State.PoweredOn.laws ⟨rfl, rfl, rfl, rfl, rfl, rfl, rfl, rfl, rfl⟩ (fun h => by cases h)
    (portLaw_resetAssert s) fun _ => ⟨rfl, rfl, rfl, rfl, rfl, rfl, rfl, rfl, rfl, rfl, rfl, rfl, rfl, fun p => ?_⟩
  rw [port_resetAssert]
  rfl

/-- Settles O3: every table stands at its power-on value. -/
theorem lawsHoldAtReset : Obligations.LawsHoldAtReset := laws_resetAssert State.reset

/-! ### What a lapse and a detachment leave -/

/-- The parts of the state that the work on records and the end of a session leave as they are. -/
structure State.SameStore (s t : State) : Prop where
  inc : ∀ i, (t.slots.get i).inc = (s.slots.get i).inc
  keyIndex : t.keyIndex = s.keyIndex
  freeList : t.freeList = s.freeList
  rights : t.rights = s.rights
  groups : t.groups = s.groups
  sweep : t.sweep = s.sweep
  link : t.link = s.link
  channels : ∀ c, (t.channel c).binding = (s.channel c).binding ∧ (t.channel c).park = (s.channel c).park
    ∧ (t.channel c).acked = (s.channel c).acked

namespace State.SameStore
variable {s t u : State}

theorem refl (s : State) : s.SameStore s := ⟨fun _ => rfl, rfl, rfl, rfl, rfl, rfl, rfl, fun _ => ⟨rfl, rfl, rfl⟩⟩

theorem around (h : s.SameStore t) (g : t.SameAround u) : s.SameStore u :=
  ⟨fun i => (g.inc i).trans (h.inc i), g.keyIndex.trans h.keyIndex, g.freeList.trans h.freeList,
    g.rights.trans h.rights, g.groups.trans h.groups, g.sweep.trans h.sweep, g.link.trans h.link, fun c => by
      obtain ⟨hbinding, hpark, hacked⟩ := h.channels c
      obtain ⟨gbinding, gpark, gacked⟩ := g.channels c
      exact ⟨gbinding.trans hbinding, gpark.trans hpark, gacked.trans hacked⟩⟩

theorem setRow (h : s.SameStore t) (a : Agent) (r : AgentRow) : s.SameStore (t.setRow a r) :=
  ⟨h.inc, h.keyIndex, h.freeList, h.rights, h.groups, h.sweep, h.link, h.channels⟩

theorem dropAgent (h : s.SameStore t) (a : Agent) : s.SameStore (t.dropAgent a) :=
  ⟨fun i => (show ((t.dropAgent a).slots.get i).inc = _ by simp [State.dropAgent]).trans (h.inc i), h.keyIndex, h.freeList, h.rights, h.groups, h.sweep, h.link,
    h.channels⟩

theorem clearSupervisor (h : s.SameStore t) (a : Agent) : s.SameStore (t.clearSupervisor a) := by
  rw [clearSupervisor_frame]
  exact ⟨h.inc, h.keyIndex, h.freeList, h.rights, h.groups, h.sweep, h.link, h.channels⟩

theorem recordLoss (h : s.SameStore t) (a : Agent) : s.SameStore (t.recordLoss a) := by
  rw [recordLoss_frame]
  exact ⟨h.inc, h.keyIndex, h.freeList, h.rights, h.groups, h.sweep, h.link, h.channels⟩

theorem loseSession (h : s.SameStore t) (a : Agent) : s.SameStore (t.loseSession a) :=
  ((h.setRow a _).dropAgent a).clearSupervisor a

theorem lapseAgent (h : s.SameStore t) (a : Agent) : s.SameStore (t.lapseAgent a) :=
  ((h.loseSession a).around (.foldl .lapseStep _ _)).recordLoss a

theorem detachAgent (h : s.SameStore t) (a : Agent) : s.SameStore (t.detachAgent a) :=
  (((h.dropAgent a).around (.foldl (.releaseSlot a) _ _)).setRow a _).clearSupervisor a

end State.SameStore

/-! ### The law of the groups (R106, R109) -/

/-- The law of R106 and R109 on one group. -/
def Group.Law (g : Group) : Prop :=
  1 ≤ g.period ∧ g.period ≤ 60000 ∧ (g.counter.isSome = true ↔ g.trigger = .period)
    ∧ ∀ n, g.counter = some n → n ≤ g.period

theorem State.GroupLaw.congr {s t : State} (h : s.GroupLaw) (hgroups : t.groups = s.groups) : t.GroupLaw := by
  intro g
  rw [State.group_congr hgroups]
  exact h g

theorem State.GroupLaw.setGroup {s : State} (h : s.GroupLaw) (g : GroupNo) {r : Group} (hr : r.Law) :
    (s.setGroup g r).GroupLaw := by
  intro j
  rw [State.group_setGroup]
  split
  · exact hr
  · exact h j

/-- A table of groups written group by group. -/
theorem State.GroupLaw.map {s t : State} (h : s.GroupLaw) {f : GroupNo → Group → Group}
    (hf : ∀ g r, Group.Law r → (f g r).Law) (ht : ∀ g, t.group g = f g (s.group g)) : t.GroupLaw := by
  intro g
  rw [ht]
  exact hf g _ (h g)

theorem groupLaw_pending {g : Group} (h : g.Law) (b : Bool) : Group.Law { g with pending := b } := h

theorem groupLaw_load {g : Group} (hlow : 1 ≤ g.period) (hhigh : g.period ≤ 60000) : g.load.Law := by
  unfold Group.load
  refine ⟨hlow, hhigh, ?_, fun n hn => ?_⟩
  · by_cases h : g.trigger = .period <;> simp [h]
  · simp only [Option.ite_none_right_eq_some, Option.some.injEq] at hn
    exact hn.2.ge

theorem groupLaw_expire {g : Group} (h : g.Law) : g.expire.Law := by
  obtain ⟨hlow, hhigh, hcounter, hbound⟩ := h
  unfold Group.expire
  split
  · next hdue => exact ⟨hlow, hhigh, by simp [hdue.1], fun n hn => by cases hn; exact le_rfl⟩
  · exact ⟨hlow, hhigh, hcounter, hbound⟩

theorem groupLaw_tick {g : Group} (h : g.Law) : Group.Law { g with counter := tickCount g.counter } := by
  obtain ⟨hlow, hhigh, hcounter, hbound⟩ := h
  refine ⟨hlow, hhigh, by simpa [tickCount] using hcounter, fun n hn => ?_⟩
  obtain ⟨m, hm, rfl⟩ := Option.map_eq_some_iff.1 hn
  exact (Nat.sub_le m 1).trans (hbound m hm)

/-- The field check of SET_GROUP bounds the period (R113). -/
theorem period_of_parseSetGroup {o : Byte} {body : List Byte} {f : GroupFields} (h : parseSetGroup o body = some f) :
    1 ≤ f.period ∧ f.period ≤ 60000 := by
  unfold parseSetGroup at h
  split at h
  · split at h
    · dsimp only at h
      split at h
      · cases h
      · next hperiod =>
        cases h
        obtain ⟨hzero, hmax⟩ := not_or.1 hperiod
        exact ⟨Nat.one_le_iff_ne_zero.2 hzero, not_lt.1 hmax⟩
    · cases h
  · cases h

theorem State.GroupLaw.expireAll {s : State} (h : s.GroupLaw) : s.expireAll.GroupLaw :=
  h.map (fun _ _ => groupLaw_expire) (group_expireAll s)

theorem State.GroupLaw.countDown {s : State} (h : s.GroupLaw) : s.countDown.GroupLaw :=
  h.map (f := fun _ g => { g with counter := tickCount g.counter }) (fun _ _ => groupLaw_tick) fun g =>
    Tab.get_map _ s.groups g

theorem State.GroupLaw.restartAll {s : State} (h : s.GroupLaw) : s.restartAll.GroupLaw := by
  refine h.map (f := fun _ g => ({ g with pending := false } : Group).load)
    (fun _ g hg => groupLaw_load hg.1 hg.2.1) fun g => ?_
  rw [restartAll_frame]
  exact Tab.get_map _ s.groups g

theorem State.GroupLaw.carried {s t : State} {q : Request} {k : ReqKind} (ht : s.Carried q k t) (h : s.GroupLaw) :
    t.GroupLaw := by
  cases ht with
  | touched k _ ht => obtain ⟨i, r, r', htouch, -⟩ := ht; exact h.congr htouch.around.groups
  | attachOver n _ => exact h.congr ((State.SameStore.refl s).lapseAgent q.agent).groups
  | detach => exact h.congr ((State.SameStore.refl s).detachAgent q.agent).groups
  | restart => exact h.restartAll
  | setRights b c rs => exact h.congr (by rw [setRightsOf_frame])
  | retire hd r _ =>
    refine h.congr ?_
    unfold State.dismantle
    rw [parkBound_frame]
    rfl
  | apply gs =>
    refine h.map (f := fun g r => if gs.mem g then r.raise else r) (fun g r hr => ?_) fun g => Tab.get_mapFin _ _ g
    split
    · exact hr
    · exact hr
  | setGroup f hparse =>
    obtain ⟨hlow, hhigh⟩ := period_of_parseSetGroup hparse
    exact h.setGroup f.group (groupLaw_load hlow hhigh)
  | fetchAttention => exact h.congr (by unfold State.fetched; rw [clearSupervisor_frame]; rfl)
  | unbind c i _ => exact h.congr (by rw [unbindRecord_frame]; rfl)
  | _ => exact h.congr rfl

theorem visit_around (s : State) (i : SlotNo) (r : Record) : s.SameAround (s.visit i r) := by
  unfold State.visit
  split
  · exact .refl s
  · exact (State.SameAround.setRecord _ _ _).trans (.liveChanged _ _ _ _ _)

theorem State.GroupLaw.worked {s t : State} (ht : s.Worked t) (h : s.GroupLaw) : t.GroupLaw := by
  cases ht with
  | lapse a _ _ => exact h.congr ((State.SameStore.refl s.grantInternal).lapseAgent a).groups
  | sweepStart g _ => exact State.GroupLaw.setGroup (s := s.grantInternal) h g (groupLaw_pending (h g) false)
  | sweepVisit i r w _ _ => exact h.congr (visit_around s.grantInternal i r).groups
  | tickWithin => exact h.expireAll.countDown.expireAll
  | tickApart => exact h.expireAll.countDown
  | periodExpiry g => exact h.setGroup g (groupLaw_expire (h g))
  | ackExpiry => exact h.congr (by rw [expireLink_eq])
  | strobeRise n _ =>
    refine h.map (f := fun _ g => if g.watchesStrobe n then g.raise else g) (fun g r hr => ?_) fun g =>
      Tab.get_map _ s.groups g
    split
    · exact hr
    · exact hr
  | _ => exact h.congr rfl

theorem exec_keeps_groupLaw {c : Instr} {s t : State} (h : s.GroupLaw) (hexec : exec c s = .next t) : t.GroupLaw :=
  exec_keeps (fun hsame h => h.congr hsame.groups) (fun _ _ _ h => h.congr rfl) (fun _ => .carried) .worked
    (fun s => (laws_resetAssert s).groups) h hexec

/-! ### The law of the update link (R147, 8.5) -/

theorem State.LinkLaw.congr {s t : State} (h : s.LinkLaw) (hqueue : t.updateQueue = s.updateQueue)
    (hlink : t.link = s.link) : t.LinkLaw := by
  unfold State.LinkLaw
  rw [hqueue, hlink]
  exact h

theorem State.LinkLaw.setLink {s : State} (h : s.LinkLaw) {l : Link} (hl : l.Law) : State.LinkLaw { s with link := l } :=
  ⟨h.1, hl⟩

theorem State.LinkLaw.notice {s : State} (h : s.LinkLaw) (c : ChannelNo) (k : UpdKind) (v : Value) :
    (s.notice c k v).LinkLaw :=
  ⟨enqueue_nodup _ _ h.1, h.2⟩

theorem State.LinkLaw.parkChannel {s : State} (h : s.LinkLaw) (c : ChannelNo) : (s.parkChannel c).LinkLaw :=
  State.LinkLaw.notice (s := s.setChannel c _) h c .parked _

theorem State.LinkLaw.parkAll {s : State} (h : s.LinkLaw) : s.parkAll.LinkLaw := by
  have hfold : ∀ (l : List ChannelNo) (u : State), u.LinkLaw → (l.foldl State.parkChannel u).LinkLaw := by
    intro l
    induction l with
    | nil => exact fun _ hu => hu
    | cons c l ih => exact fun u hu => ih _ (hu.parkChannel c)
  exact hfold _ s.clearStore h

theorem State.LinkLaw.touchedBy {s t : State} {a : Agent} (ht : s.TouchedBy a t) (h : s.LinkLaw) : t.LinkLaw := by
  obtain ⟨i, r, r', htouch, -⟩ := ht
  have hnotice : (s.noticeChange r.binding r.live r'.live).LinkLaw := by
    rcases noticeChange_cases s r.binding r.live r'.live with ⟨-, heq⟩ | ⟨c, -, -, heq⟩
    · rw [heq]; exact h
    · rw [heq]; exact h.notice c _ _
  exact ⟨by rw [htouch.updateQueue]; exact hnotice.1, by rw [htouch.around.link]; exact h.2⟩

theorem State.LinkLaw.lapseAgent {s : State} (h : s.LinkLaw) (a : Agent) : (s.lapseAgent a).LinkLaw := by
  have hlose : (s.loseSession a).LinkLaw := by
    unfold State.loseSession
    rw [clearSupervisor_frame]
    exact h
  unfold State.lapseAgent
  rw [recordLoss_frame]
  exact foldl_keeps (P := State.LinkLaw) (a := a) .touchedBy (fun s i => lapseStep_touched s a i) _ hlose

theorem State.LinkLaw.detachAgent {s : State} (h : s.LinkLaw) (a : Agent) : (s.detachAgent a).LinkLaw := by
  have hdrop : (s.dropAgent a).LinkLaw := h
  unfold State.detachAgent
  rw [clearSupervisor_frame]
  exact foldl_keeps (P := State.LinkLaw) (a := a) .touchedBy (fun s i => releaseSlot_touched s a i) _ hdrop

theorem State.LinkLaw.expireLink {s : State} (h : s.LinkLaw) : s.expireLink.LinkLaw := by
  have hlink := h.2
  unfold State.expireLink
  split
  · next f n hdue =>
    rw [hdue] at hlink
    obtain ⟨hlow, -, -⟩ := hlink
    split
    · next hn => exact h.setLink ⟨by omega, hn⟩
    · exact ⟨h.1, trivial⟩
  · exact h

theorem State.LinkLaw.countDown {s : State} (h : s.LinkLaw) : s.countDown.LinkLaw := by
  refine ⟨h.1, ?_⟩
  have hlink := h.2
  show s.link.tick.Law
  cases hl : s.link with
  | awaitAck f n t =>
    rw [hl] at hlink
    exact ⟨hlink.1, hlink.2.1, (Nat.sub_le t 1).trans hlink.2.2⟩
  | _ => rw [hl] at hlink; exact hlink

theorem State.LinkLaw.expireAll {s : State} (h : s.LinkLaw) : s.expireAll.LinkLaw :=
  State.LinkLaw.expireLink (s := { s with agents := _, groups := _ }) h

theorem State.LinkLaw.carried {s t : State} {q : Request} {k : ReqKind} (ht : s.Carried q k t) (h : s.LinkLaw) :
    t.LinkLaw := by
  cases ht with
  | touched k _ ht => exact h.touchedBy ht
  | attachOver n _ => exact h.lapseAgent q.agent
  | detach => exact h.detachAgent q.agent
  | restart =>
    rw [restartAll_frame]
    exact ⟨h.parkAll.1, h.2⟩
  | setRights b c rs => rw [setRightsOf_frame]; exact h
  | retire hd r _ =>
    have hpark : State.LinkLaw ((s.conditionAll (r.retireTold q.agent) .retired hd r.key).parkBound r.binding) := by
      unfold State.parkBound
      split
      · exact h
      · exact State.LinkLaw.parkChannel (s := s.conditionAll _ _ _ _) h _
    exact hpark
  | fetchAttention => unfold State.fetched; rw [clearSupervisor_frame]; exact h
  | bind c hd r _ _ _ => exact State.LinkLaw.notice (s := s.join c hd.slot r) h c .value r.live
  | unbind c i _ =>
    rw [unbindRecord_frame]
    exact State.LinkLaw.parkChannel (s := { s with slots := _ }) h c
  | setParkUnbound c v _ => exact State.LinkLaw.notice (s := s.setChannel c _) h c .parked v
  | linkResume u _ => exact h.setLink ⟨le_rfl, by omega⟩
  | _ => exact h

theorem State.LinkLaw.worked {s t : State} (ht : s.Worked t) (h : s.LinkLaw) : t.LinkLaw := by
  cases ht with
  | lapse a _ _ => exact State.LinkLaw.lapseAgent (s := s.grantInternal) h a
  | sweepVisit i r w _ hrec =>
    rcases visit_touched (s := s.grantInternal) hrec 0 with hsame | htouched
    · rw [hsame]; exact h
    · have hvisit := State.LinkLaw.touchedBy htouched h
      exact hvisit
  | tickWithin => exact h.expireAll.countDown.expireAll
  | tickApart => exact h.expireAll.countDown
  | ackExpiry => exact h.expireLink
  | takeHead u us _ hqueue =>
    have hnodup := h.1
    rw [hqueue, List.map_cons, List.nodup_cons] at hnodup
    exact ⟨hnodup.2, le_rfl, by omega⟩
  | endFrame f n hlink =>
    have hlaw := h.2
    rw [hlink] at hlaw
    exact ⟨h.1, hlaw.1, hlaw.2, le_rfl⟩
  | acknowledge f n m _ => exact ⟨h.1, trivial⟩
  | _ => exact h

theorem exec_keeps_linkLaw {c : Instr} {s t : State} (h : s.LinkLaw) (hexec : exec c s = .next t) : t.LinkLaw :=
  exec_keeps (fun hsame h => h.congr hsame.updateQueue hsame.link) (fun _ _ _ h => h) (fun _ => .carried) .worked
    (fun s => (laws_resetAssert s).link) h hexec

end Sys2Proof.Machine
end

section
/-! PROOF. The laws of the attention lists and of the sessions, kept by every command (R46, R64, R130). -/
namespace Sys2Proof.Machine

/-! ### A condition in a list (R131) -/

/-- Whether a list has an entry of the handle. -/
theorem any_handle_iff {l : List Entry} {h : Handle} : (l.any fun e => e.handle == h) = true ↔ ∃ e ∈ l, e.handle = h := by
  simp

section
variable {row : AgentRow} {h : Handle} (x : Reason) (k : Key)

theorem condition_of_listed (hattached : row.state = .attached) (hlisted : ∃ e ∈ row.attention, e.handle = h) :
    row.condition x h k =
      { row with attention := row.attention.map fun e => if e.handle = h then e.join x k else e } := by
  rw [AgentRow.condition, if_neg (not_not.2 hattached), if_pos (any_handle_iff.2 hlisted)]

theorem condition_of_new (hattached : row.state = .attached) (hnew : ∀ e ∈ row.attention, e.handle ≠ h)
    (hroom : row.attention.length < 24) :
    row.condition x h k = { row with attention :=
      row.attention ++ [{ handle := h, key := k, reasons := (FinSet.empty 6).insert x.idx }] } := by
  have hnot : ¬ (row.attention.any fun e => e.handle == h) = true := fun hany => by
    obtain ⟨e, he, heq⟩ := any_handle_iff.1 hany
    exact hnew e he heq
  rw [AgentRow.condition, if_neg (not_not.2 hattached), if_neg hnot,
    if_pos (show row.attention.length < Config.attentionCap from hroom)]

theorem condition_of_full (hattached : row.state = .attached) (hnew : ∀ e ∈ row.attention, e.handle ≠ h)
    (hfull : 24 ≤ row.attention.length) : row.condition x h k = { row with overflow := true } := by
  have hnot : ¬ (row.attention.any fun e => e.handle == h) = true := fun hany => by
    obtain ⟨e, he, heq⟩ := any_handle_iff.1 hany
    exact hnew e he heq
  rw [AgentRow.condition, if_neg (not_not.2 hattached), if_neg hnot,
    if_neg (show ¬ row.attention.length < Config.attentionCap from not_lt.2 hfull)]

end

/-- In a list that names each handle once, joining the handle's entry writes that entry in its place. -/
theorem map_join_of_unique {pre post : List Entry} {e : Entry} {h : Handle} (x : Reason) (k : Key) (he : e.handle = h)
    (hothers : ∀ d ∈ pre ++ post, d.handle ≠ h) :
    ((pre ++ e :: post).map fun d => if d.handle = h then d.join x k else d) = pre ++ e.join x k :: post := by
  have hkeep : ∀ l : List Entry, (∀ d ∈ l, d.handle ≠ h) →
      (l.map fun d => if d.handle = h then d.join x k else d) = l := fun l hl =>
    (List.map_congr_left fun d hd => if_neg (hl d hd)).trans (List.map_id' l)
  rw [List.map_append, List.map_cons, if_pos he, hkeep pre fun d hd => hothers d (List.mem_append_left _ hd),
    hkeep post fun d hd => hothers d (List.mem_append_right _ hd)]

/-- Settles O34: the table of R131, row by row. -/
theorem conditionEntersTheList : Obligations.ConditionEntersTheList := by
  intro row x h k
  refine ⟨fun hnot => condition_of_not_attached hnot x h k, fun hattached pre e post hlist he hothers => ?_,
    fun hattached hnew => ⟨condition_of_new x k hattached hnew, condition_of_full x k hattached hnew⟩⟩
  rw [condition_of_listed x k hattached ⟨e, by simp [hlist], he⟩, hlist, map_join_of_unique x k he hothers]
  rfl

/-! ### The law of the attention lists (R130) -/

/-- The law of R130 on one list. -/
def AgentRow.AttentionLaw (row : AgentRow) : Prop :=
  row.attention.length ≤ 24 ∧ (row.attention.map (·.handle)).Nodup
    ∧ ∀ e ∈ row.attention, ∃ n, e.reasons.mem n = true

theorem attentionLaw_of_nil {row : AgentRow} (h : row.attention = []) : row.AttentionLaw := by
  simp [AgentRow.AttentionLaw, h]

theorem AgentRow.AttentionLaw.congr {x y : AgentRow} (h : x.AttentionLaw) (heq : y.attention = x.attention) :
    y.AttentionLaw := by
  unfold AgentRow.AttentionLaw
  rw [heq]
  exact h

theorem AgentRow.AttentionLaw.condition {row : AgentRow} (hlaw : row.AttentionLaw) (x : Reason) (h : Handle)
    (k : Key) : (row.condition x h k).AttentionLaw := by
  by_cases hattached : row.state = .attached
  case neg => rw [condition_of_not_attached hattached]; exact hlaw
  obtain ⟨hlen, hnodup, hreasons⟩ := hlaw
  by_cases hlisted : ∃ e ∈ row.attention, e.handle = h
  · rw [condition_of_listed x k hattached hlisted]
    have hhandle : ∀ e : Entry, (if e.handle = h then e.join x k else e).handle = e.handle := fun e => by
      split <;> rfl
    refine ⟨by simpa using hlen, by simpa [Function.comp_def, hhandle] using hnodup, fun d hd => ?_⟩
    obtain ⟨e, he, rfl⟩ := List.mem_map.1 hd
    split
    · exact ⟨x.idx, by simp [Entry.join]⟩
    · exact hreasons e he
  · have hnew : ∀ e ∈ row.attention, e.handle ≠ h := fun e he heq => hlisted ⟨e, he, heq⟩
    rcases lt_or_ge row.attention.length 24 with hroom | hfull
    · rw [condition_of_new x k hattached hnew hroom]
      refine ⟨by simpa using hroom, ?_, fun d hd => ?_⟩
      · rw [List.map_append, List.nodup_append]
        refine ⟨hnodup, by simp, fun a ha b hb hab => ?_⟩
        obtain ⟨e, he, rfl⟩ := List.mem_map.1 ha
        simp only [List.map_cons, List.map_nil, List.mem_singleton] at hb
        exact hnew e he (hab.trans hb)
      · rcases List.mem_append.1 hd with hd | hd
        · exact hreasons d hd
        · rw [List.mem_singleton.1 hd]
          exact ⟨x.idx, by simp⟩
    · rw [condition_of_full x k hattached hnew hfull]
      exact ⟨hlen, hnodup, hreasons⟩

theorem AgentRow.AttentionLaw.told {x y : AgentRow} (h : x.AttentionLaw) (ht : x.Told y) : y.AttentionLaw := by
  induction ht with
  | refl => exact h
  | tail _ hstep ih =>
    obtain ⟨r, hd, k, rfl⟩ := hstep
    exact ih.condition r hd k

theorem AgentRow.AttentionLaw.expire {x : AgentRow} (h : x.AttentionLaw) : x.expire.AttentionLaw := by
  unfold AgentRow.expire
  split
  · exact h.congr rfl
  · exact h

theorem AgentRow.AttentionLaw.drop {x : AgentRow} (h : x.AttentionLaw) (n : Nat) :
    AgentRow.AttentionLaw { x with overflow := false, attention := x.attention.drop n } := by
  obtain ⟨hlen, hnodup, hreasons⟩ := h
  have hsub : (x.attention.drop n).Sublist x.attention := List.drop_sublist n _
  exact ⟨hsub.length_le.trans hlen, (hsub.map _).nodup hnodup, fun e he => hreasons e (hsub.subset he)⟩

/-! ### The law of the sessions (R46, R48, R64) -/

/-- The law of the sessions on one agent. -/
def AgentRow.SessionLaw (row : AgentRow) : Prop :=
  (row.state = .detached ↔ row.port = none) ∧ (row.state = .detached ↔ row.period = none)
    ∧ (row.state ≠ .attached →
        row.attention = [] ∧ row.overflow = false ∧ row.countdown = none ∧ row.expired = false)

theorem AgentRow.SessionLaw.told {x y : AgentRow} (h : x.SessionLaw) (ht : x.Told y) : y.SessionLaw := by
  by_cases hx : x.state = .attached
  · have hsame := ht.sameSession
    unfold AgentRow.SessionLaw
    rw [hsame.state, hsame.port, hsame.period]
    exact ⟨h.1, h.2.1, fun hnot => absurd hx hnot⟩
  · rw [ht.eq_of_not_attached hx]
    exact h

theorem sessionLaw_leave (row : AgentRow) : row.leave.SessionLaw := by
  simp [AgentRow.SessionLaw, AgentRow.leave]

theorem sessionLaw_begin (row : AgentRow) (p : PortId) (n : Nat) : (row.begin p n).SessionLaw := by
  simp [AgentRow.SessionLaw, AgentRow.begin]

theorem AgentRow.SessionLaw.lose {row : AgentRow} (h : row.SessionLaw) (hattached : row.state = .attached) :
    row.lose.SessionLaw := by
  obtain ⟨hport, hperiod, -⟩ := h
  have hsession : row.port ≠ none ∧ row.period ≠ none :=
    ⟨fun hnone => by simp [hattached] at hport; exact hport hnone,
      fun hnone => by simp [hattached] at hperiod; exact hperiod hnone⟩
  obtain ⟨hport, hperiod⟩ := hsession
  simp [AgentRow.SessionLaw, AgentRow.lose, hport, hperiod]

theorem AgentRow.SessionLaw.expire {row : AgentRow} (h : row.SessionLaw) : row.expire.SessionLaw := by
  unfold AgentRow.expire
  split
  · next hdue =>
    obtain ⟨hport, hperiod, hquiet⟩ := h
    refine ⟨hport, hperiod, fun hnot => ?_⟩
    have hstopped := (hquiet hnot).2.2.1
    rw [hdue] at hstopped
    cases hstopped
  · exact h

theorem AgentRow.SessionLaw.tick {row : AgentRow} (h : row.SessionLaw) :
    AgentRow.SessionLaw { row with countdown := tickCount row.countdown } := by
  obtain ⟨hport, hperiod, hquiet⟩ := h
  refine ⟨hport, hperiod, fun hnot => ?_⟩
  obtain ⟨hlist, hoverflow, hcountdown, hexpired⟩ := hquiet hnot
  exact ⟨hlist, hoverflow, by simp only [hcountdown]; rfl, hexpired⟩

theorem AgentRow.SessionLaw.of_attached {row row' : AgentRow} (h : row.SessionLaw) (hattached : row.state = .attached)
    (hstate : row'.state = row.state) (hport : row'.port = row.port) (hperiod : row'.period = row.period) :
    row'.SessionLaw := by
  unfold AgentRow.SessionLaw
  rw [hstate, hport, hperiod]
  exact ⟨h.1, h.2.1, fun hnot => absurd hattached hnot⟩

theorem AgentRow.SessionLaw.drop {row : AgentRow} (h : row.SessionLaw) (n : Nat) :
    AgentRow.SessionLaw { row with overflow := false, attention := row.attention.drop n } := by
  obtain ⟨hport, hperiod, hquiet⟩ := h
  refine ⟨hport, hperiod, fun hnot => ?_⟩
  obtain ⟨hlist, -, hcountdown, hexpired⟩ := hquiet hnot
  exact ⟨by simp only [hlist, List.drop_nil], rfl, hcountdown, hexpired⟩

theorem AgentRow.SessionLaw.attached_of_expired {row : AgentRow} (h : row.SessionLaw) (hexpired : row.expired = true) :
    row.state = .attached := by
  by_contra hnot
  have := (h.2.2 hnot).2.2.2
  rw [hexpired] at this
  cases this

/-! ### The rows of the agents -/

theorem row_dropAgent (s : State) (a b : Agent) : (s.dropAgent a).row b = s.row b := rfl

theorem row_clearSupervisor (s : State) (a b : Agent) : (s.clearSupervisor a).row b = s.row b := by
  rw [clearSupervisor_frame]
  rfl

theorem row_recordLoss (s : State) (a b : Agent) : (s.recordLoss a).row b = s.row b := by
  rw [recordLoss_frame]
  rfl

theorem row_foldl_told {a : Agent} {f : State → SlotNo → State} (hf : ∀ s i, f s i = s ∨ s.TouchedBy a (f s i))
    (l : List SlotNo) (s : State) (b : Agent) : (s.row b).Told ((l.foldl f s).row b) := by
  refine foldl_keeps (P := fun u => (s.row b).Told (u.row b)) (a := a) (fun ht h => ?_) hf l .refl
  obtain ⟨i, r, r', htouch, -⟩ := ht
  exact h.trans (htouch.told b)

/-- A lapse tells agents conditions, and its agent's session is LOST, to be told nothing. -/
theorem row_lapseAgent (s : State) (a b : Agent) :
    (b = a → (s.lapseAgent a).row b = (s.row a).lose) ∧ (b ≠ a → (s.row b).Told ((s.lapseAgent a).row b)) := by
  have htold := row_foldl_told (a := a) (fun s i => lapseStep_touched s a i) ((s.loseSession a).heldSlots a)
    (s.loseSession a) b
  rw [row_loseSession] at htold
  unfold State.lapseAgent
  rw [row_recordLoss]
  constructor
  · intro hb
    rw [if_pos hb] at htold
    refine htold.eq_of_not_attached ?_
    simp [AgentRow.lose]
  · intro hb
    rw [if_neg hb] at htold
    exact htold

/-- A detachment tells agents conditions, and its agent's session is DETACHED. -/
theorem row_detachAgent (s : State) (a b : Agent) :
    (b = a → (s.detachAgent a).row b = (s.row a).leave) ∧ (b ≠ a → (s.row b).Told ((s.detachAgent a).row b)) := by
  have htold := fun c => row_foldl_told (a := a) (fun s i => releaseSlot_touched s a i)
    ((s.dropAgent a).heldSlots a) (s.dropAgent a) c
  unfold State.detachAgent
  dsimp only
  rw [row_clearSupervisor, State.row_setRow]
  constructor
  · intro hb
    subst hb
    rw [if_pos rfl]
    have hsame := (htold b).sameSession
    simp only [row_dropAgent] at hsame
    unfold AgentRow.leave
    rw [hsame.epoch]
  · intro hb
    rw [if_neg (Ne.symm hb)]
    exact htold b

theorem flags_clearSupervisor (s : State) (a : Agent) :
    (a = 0 → (s.clearSupervisor a).linkStalled = false ∧ (s.clearSupervisor a).lostAgents = FinSet.empty 8)
      ∧ (a ≠ 0 → (s.clearSupervisor a).linkStalled = s.linkStalled
          ∧ (s.clearSupervisor a).lostAgents = s.lostAgents) := by
  unfold State.clearSupervisor
  constructor
  · intro h; rw [if_pos h]; exact ⟨rfl, rfl⟩
  · intro h; rw [if_neg h]; exact ⟨rfl, rfl⟩

/-- Work on records leaves the supervisor's flags. -/
theorem flags_foldl {a : Agent} {f : State → SlotNo → State} (hf : ∀ s i, f s i = s ∨ s.TouchedBy a (f s i))
    (l : List SlotNo) (s : State) :
    (l.foldl f s).linkStalled = s.linkStalled ∧ (l.foldl f s).lostAgents = s.lostAgents := by
  refine foldl_keeps (P := fun u => u.linkStalled = s.linkStalled ∧ u.lostAgents = s.lostAgents) (a := a)
    (fun ht h => ?_) hf l ⟨rfl, rfl⟩
  obtain ⟨i, r, r', htouch, -⟩ := ht
  exact ⟨htouch.around.linkStalled.trans h.1, htouch.around.lostAgents.trans h.2⟩

theorem row_expireLink (s : State) (a : Agent) : s.expireLink.row a = s.row a := by
  rw [expireLink_eq]
  rfl

theorem row_countDown (s : State) (a : Agent) :
    s.countDown.row a = { (s.row a) with countdown := tickCount (s.row a).countdown } :=
  Tab.get_map _ s.agents a

theorem row_restartAll (s : State) (a : Agent) : s.restartAll.row a = (s.row a).restart a := by
  rw [restartAll_frame]
  exact Tab.get_mapFin _ s.agents a

/-! ### The attention lists, kept -/

/-- The law of the lists is kept where each list is kept, told conditions or written to be lawful. -/
theorem State.AttentionLaw.carried {s t : State} {q : Request} {k : ReqKind} (ht : s.Carried q k t)
    (h : s.AttentionLaw) : t.AttentionLaw := by
  have hsame : t.agents = s.agents → t.AttentionLaw := fun heq a => by
    rw [State.row_congr heq]; exact h a
  cases ht with
  | touched k _ ht => obtain ⟨i, r, r', htouch, -⟩ := ht; exact fun a => AgentRow.AttentionLaw.told (h a) (htouch.told a)
  | attach n _ =>
    intro b
    rw [State.row_setRow]
    split
    · exact AgentRow.AttentionLaw.congr (h q.agent) rfl
    · exact h b
  | attachOver n _ =>
    intro b
    rw [State.row_setRow]
    split
    · next hb =>
      rw [(row_lapseAgent s q.agent q.agent).1 rfl]
      exact attentionLaw_of_nil rfl
    · next hb => exact AgentRow.AttentionLaw.told (h b) ((row_lapseAgent s q.agent b).2 (Ne.symm hb))
  | detach =>
    intro b
    by_cases hb : b = q.agent
    · rw [(row_detachAgent s q.agent b).1 hb]
      exact attentionLaw_of_nil rfl
    · exact AgentRow.AttentionLaw.told (h b) ((row_detachAgent s q.agent b).2 hb)
  | restart =>
    intro b
    rw [row_restartAll]
    unfold AgentRow.restart
    split
    · exact attentionLaw_of_nil rfl
    · split
      · exact h b
      · exact attentionLaw_of_nil rfl
  | setRights b c rs => exact hsame (by rw [setRightsOf_frame])
  | retire hd r _ =>
    intro b
    have hrow : ((s.conditionAll (r.retireTold q.agent) .retired hd r.key).dismantle hd.slot r).row b
        = (s.conditionAll (r.retireTold q.agent) .retired hd r.key).row b := by
      unfold State.dismantle
      rw [parkBound_frame]
      rfl
    rw [hrow]
    exact AgentRow.AttentionLaw.told (h b) (row_told_conditionAll _ _ _ _ _ _)
  | fetchAttention =>
    intro b
    unfold State.fetched
    rw [row_clearSupervisor, State.row_setRow]
    split
    · exact AgentRow.AttentionLaw.drop (h q.agent) _
    · exact h b
  | unbind c i _ => exact hsame (by rw [unbindRecord_frame]; rfl)
  | _ => exact hsame rfl

theorem State.AttentionLaw.worked {s t : State} (ht : s.Worked t) (h : s.AttentionLaw) : t.AttentionLaw := by
  have hsame : t.agents = s.agents → t.AttentionLaw := fun heq a => by
    rw [State.row_congr heq]; exact h a
  have hexpire : ∀ a, (s.row a).expire.AttentionLaw := fun a => AgentRow.AttentionLaw.expire (h a)
  cases ht with
  | lapse a _ _ =>
    intro b
    by_cases hb : b = a
    · rw [(row_lapseAgent s.grantInternal a b).1 hb]
      exact attentionLaw_of_nil rfl
    · exact AgentRow.AttentionLaw.told (h b) ((row_lapseAgent s.grantInternal a b).2 hb)
  | sweepVisit i r w _ hrec =>
    rcases visit_touched (s := s.grantInternal) hrec 0 with hvisit | ⟨j, x, x', htouch, -⟩
    · exact hsame (by rw [hvisit]; rfl)
    · exact fun a => AgentRow.AttentionLaw.told (h a) (htouch.told a)
  | tickWithin =>
    intro a
    rw [row_expireAll, row_countDown, row_expireAll]
    have hcounted : AgentRow.AttentionLaw
        { (s.row a).expire with countdown := tickCount (s.row a).expire.countdown } := (hexpire a).congr rfl
    exact hcounted.expire
  | tickApart =>
    intro a
    rw [row_countDown, row_expireAll]
    exact hexpire a
  | keepaliveExpiry a =>
    intro b
    rw [State.row_setRow]
    split
    · exact hexpire a
    · exact h b
  | ackExpiry => exact hsame (by rw [expireLink_eq])
  | _ => exact hsame rfl

theorem exec_keeps_attentionLaw {c : Instr} {s t : State} (h : s.AttentionLaw) (hexec : exec c s = .next t) :
    t.AttentionLaw := by
  refine exec_keeps (fun hsame h a => ?_) (fun _ a _ h b => ?_) (fun _ => .carried) .worked
    (fun s => (laws_resetAssert s).attention) h hexec
  · rw [State.row_congr hsame.agents]; exact h a
  · unfold State.renew
    rw [State.row_setRow]
    split
    · exact AgentRow.AttentionLaw.congr (h a) rfl
    · exact h b

/-! ### The sessions, kept -/

/-- The law of the sessions, row by row and on the supervisor's flags. -/
theorem sessionLaw_iff {s : State} : s.SessionLaw ↔
    (∀ a, (s.row a).SessionLaw)
      ∧ ((s.row 0).state ≠ .attached → s.linkStalled = false ∧ s.lostAgents = FinSet.empty 8)
      ∧ s.lostAgents.mem 0 = false := Iff.rfl

theorem State.SessionLaw.congr {s t : State} (h : s.SessionLaw) (hagents : t.agents = s.agents)
    (hstalled : t.linkStalled = s.linkStalled) (hlost : t.lostAgents = s.lostAgents) : t.SessionLaw := by
  have hrow := State.row_congr hagents
  rw [sessionLaw_iff, hstalled, hlost]
  simpa only [hrow] using sessionLaw_iff.1 h

/-- Agents told conditions keep the law. -/
theorem State.SessionLaw.told {s t : State} (h : s.SessionLaw) (hrows : ∀ a, (s.row a).Told (t.row a))
    (hstalled : t.linkStalled = s.linkStalled) (hlost : t.lostAgents = s.lostAgents) : t.SessionLaw := by
  obtain ⟨hlaw, hflags, hzero⟩ := h
  refine ⟨fun a => AgentRow.SessionLaw.told (hlaw a) (hrows a), ?_, by rw [hlost]; exact hzero⟩
  rw [hstalled, hlost, (hrows 0).sameSession.state]
  exact hflags

theorem State.SessionLaw.touchedBy {s t : State} {a : Agent} (ht : s.TouchedBy a t) (h : s.SessionLaw) :
    t.SessionLaw := by
  obtain ⟨i, r, r', htouch, -⟩ := ht
  exact h.told htouch.told htouch.around.linkStalled htouch.around.lostAgents

/-- One agent's row written lawfully, with agent 0's flags cleared when it is agent 0. -/
theorem State.SessionLaw.write {s t : State} (h : s.SessionLaw) {a : Agent} {row : AgentRow} (hrow : row.SessionLaw)
    (hrows : ∀ b, t.row b = if a = b then row else s.row b)
    (hsup : a = 0 → t.linkStalled = false ∧ t.lostAgents = FinSet.empty 8)
    (hother : a ≠ 0 → t.linkStalled = s.linkStalled ∧ t.lostAgents = s.lostAgents) : t.SessionLaw := by
  obtain ⟨hlaw, hflags, hzero⟩ := h
  refine ⟨fun b => ?_, fun hnot => ?_, ?_⟩
  · rw [hrows]
    split
    · exact hrow
    · exact hlaw b
  · by_cases ha : a = 0
    · exact hsup ha
    · rw [hrows, if_neg ha] at hnot
      rw [(hother ha).1, (hother ha).2]
      exact hflags hnot
  · by_cases ha : a = 0
    · rw [(hsup ha).2]; simp
    · rw [(hother ha).2]; exact hzero

/-- One agent's row written lawfully, its session as ATTACHED as before or more so. -/
theorem State.SessionLaw.setRow {s : State} (h : s.SessionLaw) (a : Agent) {row : AgentRow} (hrow : row.SessionLaw)
    (hstate : (s.row a).state = .attached → row.state = .attached) : (s.setRow a row).SessionLaw := by
  obtain ⟨hlaw, hflags, hzero⟩ := h
  refine ⟨fun b => ?_, fun hnot => hflags fun h0 => hnot ?_, hzero⟩
  · rw [State.row_setRow]
    split
    · exact hrow
    · exact hlaw b
  · rw [State.row_setRow]
    split
    · next ha => subst ha; exact hstate h0
    · exact h0

theorem State.SessionLaw.loseSession {s : State} (h : s.SessionLaw) {a : Agent} (ha : (s.row a).state = .attached) :
    (s.loseSession a).SessionLaw := by
  obtain ⟨hsup, hother⟩ := flags_clearSupervisor ((s.setRow a (s.row a).lose).dropAgent a) a
  refine h.write (AgentRow.SessionLaw.lose (h.1 a) ha) (fun b => ?_) hsup hother
  rw [row_loseSession]
  simp only [eq_comm]

theorem State.SessionLaw.recordLoss {s : State} (h : s.SessionLaw) (a : Agent) : (s.recordLoss a).SessionLaw := by
  unfold State.recordLoss
  split
  · next hcond =>
    obtain ⟨hlaw, -, hzero⟩ := h
    refine ⟨hlaw, fun hnot => absurd hcond.2 hnot, ?_⟩
    show (s.lostAgents.insert a).mem 0 = false
    simp [hcond.1, hzero]
  · exact h

theorem State.SessionLaw.lapseAgent {s : State} (h : s.SessionLaw) {a : Agent} (ha : (s.row a).state = .attached) :
    (s.lapseAgent a).SessionLaw :=
  State.SessionLaw.recordLoss (foldl_keeps (P := State.SessionLaw) (a := a) .touchedBy
    (fun s i => lapseStep_touched s a i) _ (h.loseSession ha)) a

theorem State.SessionLaw.detachAgent {s : State} (h : s.SessionLaw) (a : Agent) : (s.detachAgent a).SessionLaw := by
  have hdrop : (s.dropAgent a).SessionLaw := h
  have hreleased := foldl_keeps (P := State.SessionLaw) (a := a) .touchedBy (fun s i => releaseSlot_touched s a i)
    ((s.dropAgent a).heldSlots a) hdrop
  unfold State.detachAgent
  dsimp only
  generalize ((s.dropAgent a).heldSlots a).foldl (releaseSlot a) (s.dropAgent a) = u at hreleased ⊢
  obtain ⟨hsup, hother⟩ := flags_clearSupervisor (u.setRow a (u.row a).leave) a
  refine hreleased.write (sessionLaw_leave (u.row a)) (fun b => ?_) hsup hother
  rw [row_clearSupervisor, State.row_setRow]

theorem State.SessionLaw.restartAll {s : State} (h : s.SessionLaw) (h0 : (s.row 0).state = .attached) :
    s.restartAll.SessionLaw := by
  have hflags : s.restartAll.linkStalled = false ∧ s.restartAll.lostAgents = FinSet.empty 8 := by
    rw [restartAll_frame]
    exact ⟨rfl, rfl⟩
  refine ⟨fun a => ?_, fun _ => hflags, by rw [hflags.2]; simp⟩
  rw [row_restartAll]
  show ((s.row a).restart a).SessionLaw
  unfold AgentRow.restart
  split
  · next ha => subst ha; exact AgentRow.SessionLaw.of_attached (h.1 0) h0 rfl rfl rfl
  · split
    · exact h.1 a
    · exact sessionLaw_leave _

theorem state_expire (row : AgentRow) : row.expire.state = row.state := by
  unfold AgentRow.expire
  split <;> rfl

theorem lostAgents_expireLink (s : State) : s.expireLink.lostAgents = s.lostAgents := by
  rw [expireLink_eq]

/-- An expiry of the acknowledge timer sets LINK_STALLED for an ATTACHED supervisor alone. -/
theorem linkStalled_expireLink {s : State} (h0 : (s.row 0).state ≠ .attached) :
    s.expireLink.linkStalled = s.linkStalled := by
  unfold State.expireLink
  repeat' split
  · rfl
  · have : ((s.row 0).state == SessState.attached) = false := beq_false_of_ne h0
    simp [this]
  · rfl

theorem State.SessionLaw.expireLink {s : State} (h : s.SessionLaw) : s.expireLink.SessionLaw := by
  obtain ⟨hlaw, hflags, hzero⟩ := h
  refine ⟨fun a => by rw [row_expireLink]; exact hlaw a, fun hnot => ?_, by rw [lostAgents_expireLink]; exact hzero⟩
  rw [row_expireLink] at hnot
  rw [linkStalled_expireLink hnot, lostAgents_expireLink]
  exact hflags hnot

/-- Rows written one by one, each lawfully and in the same state. -/
theorem State.SessionLaw.map {s t : State} (h : s.SessionLaw) {f : AgentRow → AgentRow}
    (hf : ∀ row, AgentRow.SessionLaw row → (f row).SessionLaw) (hstate : ∀ row, (f row).state = row.state)
    (hrows : ∀ a, t.row a = f (s.row a)) (hstalled : t.linkStalled = s.linkStalled)
    (hlost : t.lostAgents = s.lostAgents) : t.SessionLaw := by
  obtain ⟨hlaw, hflags, hzero⟩ := h
  refine ⟨fun a => by rw [hrows]; exact hf _ (hlaw a), fun hnot => ?_, by rw [hlost]; exact hzero⟩
  rw [hrows, hstate] at hnot
  rw [hstalled, hlost]
  exact hflags hnot

theorem State.SessionLaw.expireAll {s : State} (h : s.SessionLaw) : s.expireAll.SessionLaw := by
  have hrows : State.SessionLaw { s with agents := s.agents.map AgentRow.expire, groups := s.groups.map Group.expire } :=
    h.map (fun _ => AgentRow.SessionLaw.expire) state_expire (fun a => Tab.get_map _ s.agents a) rfl rfl
  exact hrows.expireLink

theorem State.SessionLaw.countDown {s : State} (h : s.SessionLaw) : s.countDown.SessionLaw :=
  h.map (f := fun row => { row with countdown := tickCount row.countdown }) (fun _ => AgentRow.SessionLaw.tick)
    (fun _ => rfl) (row_countDown s) rfl rfl

theorem State.SessionLaw.carried {s t : State} {q : Request} {k : ReqKind} (ht : s.Carried q k t)
    (h : s.SessionLaw) : t.SessionLaw := by
  cases ht with
  | touched k _ ht => exact h.touchedBy ht
  | attach n _ => exact h.setRow q.agent (sessionLaw_begin _ _ _) fun _ => rfl
  | attachOver n ha => exact (h.lapseAgent ha).setRow q.agent (sessionLaw_begin _ _ _) fun _ => rfl
  | detach => exact h.detachAgent q.agent
  | restart h0 => exact h.restartAll h0
  | setRights b c rs => rw [setRightsOf_frame]; exact h
  | retire hd r _ =>
    have htold : (s.conditionAll (r.retireTold q.agent) .retired hd r.key).SessionLaw :=
      h.told (fun b => row_told_conditionAll _ _ _ _ _ _) rfl rfl
    unfold State.dismantle
    rw [parkBound_frame]
    exact htold
  | fetchAttention =>
    obtain ⟨hsup, hother⟩ := flags_clearSupervisor (s.setRow q.agent { (s.row q.agent) with
      overflow := false, attention := (s.row q.agent).attention.drop Config.fetchMax }) q.agent
    refine h.write (AgentRow.SessionLaw.drop (h.1 q.agent) Config.fetchMax) (fun b => ?_) hsup hother
    unfold State.fetched
    rw [row_clearSupervisor, State.row_setRow]
  | unbind c i _ => rw [unbindRecord_frame]; exact h
  | _ => exact h

theorem State.SessionLaw.worked {s t : State} (ht : s.Worked t) (h : s.SessionLaw) : t.SessionLaw := by
  cases ht with
  | lapse a _ hexpired =>
    exact State.SessionLaw.lapseAgent (s := s.grantInternal) h
      (AgentRow.SessionLaw.attached_of_expired (h.1 a) hexpired)
  | sweepVisit i r w _ hrec =>
    rcases visit_touched (s := s.grantInternal) hrec 0 with hsame | htouched
    · rw [hsame]; exact h
    · have hvisit := State.SessionLaw.touchedBy htouched h
      exact hvisit
  | tickWithin => exact h.expireAll.countDown.expireAll
  | tickApart => exact h.expireAll.countDown
  | keepaliveExpiry a =>
    exact h.setRow a (AgentRow.SessionLaw.expire (h.1 a)) fun ha => by rw [state_expire]; exact ha
  | ackExpiry => exact h.expireLink
  | _ => exact h

theorem exec_keeps_sessionLaw {c : Instr} {s t : State} (h : s.SessionLaw) (hexec : exec c s = .next t) :
    t.SessionLaw :=
  exec_keeps (fun hsame h => h.congr hsame.agents hsame.linkStalled hsame.lostAgents)
    (fun _ a ha h => h.setRow a (AgentRow.SessionLaw.of_attached (h.1 a) ha rfl rfl rfl) fun ha => ha)
    (fun _ => .carried) .worked (fun s => (laws_resetAssert s).sessions) h hexec

end Sys2Proof.Machine
end

section
/-! PROOF. The records after a lapse and a detachment, and the laws of the store, of owners, claimants and watchers, and
of the bindings, kept by every command (R1, R6, R10, R12, R71, R125, R139, R140). -/
namespace Sys2Proof.Machine

/-! ### The records after a lapse, a detachment and a visit -/

theorem triggerOf_congr {s t : State} (h : t.groups = s.groups) (g : GroupNo) : t.triggerOf g = s.triggerOf g := by
  rw [State.triggerOf, State.group_congr h, State.triggerOf]

/-- A lapse gives each record the agent held its lapse step, and takes the agent out of every other record. -/
theorem record_lapseAgent (s : State) (a : Agent) (i : SlotNo) : (s.lapseAgent a).record i =
    (s.record i).map fun r =>
      if r.state = .held a then (r.dropAgent a).afterLapse (s.triggerOf r.group) else r.dropAgent a := by
  have htrigger := triggerOf_congr ((State.SameStore.refl s).loseSession a).groups
  unfold State.lapseAgent
  rw [State.record_congr (slots_recordLoss _ a), record_foldl_lapseStep _ (nodup_heldSlots _ a), record_loseSession]
  simp only [mem_heldSlots, record_loseSession, htrigger]
  cases s.record i with
  | none => simp
  | some r => simp [Record.dropAgent]; split <;> rfl

/-- A detachment passes on each record the agent held, and takes the agent out of every other record. -/
theorem record_detachAgent (s : State) (a : Agent) (i : SlotNo) : (s.detachAgent a).record i =
    (s.record i).map fun r => if r.state = .held a then (r.dropAgent a).passOn else r.dropAgent a := by
  have hreleased : (s.detachAgent a).record i =
      (((s.dropAgent a).heldSlots a).foldl (State.releaseSlot a) (s.dropAgent a)).record i :=
    State.record_congr ((slots_clearSupervisor _ a).trans (State.setRow_slots _ a _)) i
  rw [hreleased, record_foldl_releaseSlot a _ (nodup_heldSlots _ a)]
  simp only [mem_heldSlots, record_dropAgent]
  cases s.record i with
  | none => simp
  | some r => simp [Record.dropAgent]; split <;> rfl

theorem key_binding_passOn (r : Record) : r.passOn.key = r.key ∧ r.passOn.binding = r.binding :=
  (Record.Step.passOn (a := 0)).key_binding

theorem key_binding_afterLapse (r : Record) (t : Trigger) :
    (r.afterLapse t).key = r.key ∧ (r.afterLapse t).binding = r.binding :=
  (Record.Step.afterLapse (a := 0) t).key_binding

/-- A visit of a sweep touches a record with work, which keeps its owner, claimants and watchers, or passes it over. -/
theorem visit_touch {s : State} {i : SlotNo} {r : Record} (hrec : s.record i = some r) :
    s.visit i r = s ∨ ∃ v n, s.Touch i r { r with live := v, staged := none, safePending := false, revision := n }
      (s.visit i r) := by
  unfold State.visit
  split
  · exact .inl rfl
  · next r' happ =>
    obtain ⟨v, rfl⟩ := applyWork_frame happ
    exact .inr ⟨v, r.revision + 1, .liveChanged hrec r.watchers⟩

/-! ### The law of the store (R1, R10, R12) -/

/-- The key in a slot, if its record is active. -/
def State.keyAt (s : State) (i : SlotNo) : Option Key := (s.record i).map (·.key)

theorem keyAt_eq_some {s : State} {i : SlotNo} {k : Key} : s.keyAt i = some k ↔ ∃ r, s.record i = some r ∧ r.key = k := by
  simp [State.keyAt]

theorem keyAt_eq_none {s : State} {i : SlotNo} : s.keyAt i = none ↔ s.record i = none := by
  simp [State.keyAt]

/-- The law of the store speaks of the records by their keys alone. -/
theorem storeLaw_iff {s : State} : s.StoreLaw ↔
    s.keyIndex.Pairwise (fun e f => e.1.toNat < f.1.toNat)
      ∧ (∀ k i, (k, i) ∈ s.keyIndex ↔ s.keyAt i = some k)
      ∧ (∀ i, s.keyAt i ≠ some 0)
      ∧ (s.phase = .ready → s.freeList.Nodup ∧ ∀ i, i ∈ s.freeList ↔ s.keyAt i = none)
      ∧ (s.phase ≠ .ready → ∀ i, s.keyAt i = none) := by
  have hkeys : (∀ i r, s.record i = some r → r.key ≠ 0) ↔ ∀ i, s.keyAt i ≠ some 0 := by
    simp only [ne_eq, keyAt_eq_some, not_exists, not_and]
  simp only [State.StoreLaw, keyAt_eq_some, keyAt_eq_none, hkeys]

/-- With no record active, the list of all slots is the list of the FREE slots. -/
theorem freeList_complete {l : List SlotNo} {x : SlotNo → Option Key} (hl : l = allSlots) (hx : ∀ i, x i = none) :
    l.Nodup ∧ ∀ i, i ∈ l ↔ x i = none := by
  rw [hl]
  refine ⟨List.nodup_finRange 256, fun i => ?_⟩
  rw [hx]
  exact iff_of_true (List.mem_finRange i) rfl

theorem State.StoreLaw.congr {s t : State} (h : s.StoreLaw) (hkeys : ∀ i, t.keyAt i = s.keyAt i)
    (hindex : t.keyIndex = s.keyIndex) (hfree : t.freeList = s.freeList) (hphase : t.phase = s.phase) : t.StoreLaw := by
  rw [storeLaw_iff] at h ⊢
  simpa only [hkeys, hindex, hfree, hphase] using h

theorem State.StoreLaw.same {s t : State} (h : s.StoreLaw) (hslots : t.slots = s.slots)
    (hindex : t.keyIndex = s.keyIndex) (hfree : t.freeList = s.freeList) (hphase : t.phase = s.phase) : t.StoreLaw :=
  h.congr (fun i => by rw [State.keyAt, State.record_congr hslots, State.keyAt]) hindex hfree hphase

theorem State.keyAt_congr {s t : State} (h : t.slots = s.slots) (i : SlotNo) : t.keyAt i = s.keyAt i := by
  rw [State.keyAt, State.record_congr h, State.keyAt]

theorem keyAt_setRecord_same {s : State} {i : SlotNo} {r r' : Record} (hrec : s.record i = some r) (hkey : r'.key = r.key)
    (j : SlotNo) : (s.setRecord i (some r')).keyAt j = s.keyAt j := by
  unfold State.keyAt
  rw [State.record_setRecord]
  split
  · next hj => subst hj; simp [hrec, hkey]
  · rfl

theorem keyAt_touch {s t : State} {i : SlotNo} {r r' : Record} (h : s.Touch i r r' t) (hkey : r'.key = r.key)
    (j : SlotNo) : t.keyAt j = s.keyAt j := by
  rw [State.keyAt, State.record_congr h.slots]
  exact keyAt_setRecord_same h.record hkey j

theorem State.StoreLaw.touch {s t : State} {i : SlotNo} {r r' : Record} (h : s.StoreLaw) (ht : s.Touch i r r' t)
    (hkey : r'.key = r.key) : t.StoreLaw :=
  h.congr (keyAt_touch ht hkey) ht.around.keyIndex ht.around.freeList ht.front.phase

theorem keyAt_of_records {s t : State} {f : Record → Record} (hrec : ∀ i, t.record i = (s.record i).map f)
    (hkey : ∀ r, (f r).key = r.key) (i : SlotNo) : t.keyAt i = s.keyAt i := by
  simp [State.keyAt, hrec, Function.comp_def, hkey]

theorem State.StoreLaw.lapseAgent {s : State} (h : s.StoreLaw) (a : Agent) : (s.lapseAgent a).StoreLaw := by
  have hstore := (State.SameStore.refl s).lapseAgent a
  refine h.congr (keyAt_of_records (record_lapseAgent s a) fun r => ?_) hstore.keyIndex hstore.freeList
    ((State.SameFront.refl s).lapseAgent a).phase
  split
  · exact (key_binding_afterLapse _ _).1
  · rfl

theorem State.StoreLaw.detachAgent {s : State} (h : s.StoreLaw) (a : Agent) : (s.detachAgent a).StoreLaw := by
  have hstore := (State.SameStore.refl s).detachAgent a
  refine h.congr (keyAt_of_records (record_detachAgent s a) fun r => ?_) hstore.keyIndex hstore.freeList
    ((State.SameFront.refl s).detachAgent a).phase
  split
  · exact (key_binding_passOn _).1
  · rfl

/-- Under the law of the store no key stands in two slots. -/
theorem State.StoreLaw.slot_of_key {s : State} (h : s.StoreLaw) {i j : SlotNo} {k : Key} (hi : s.keyAt i = some k)
    (hj : s.keyAt j = some k) : i = j := by
  obtain ⟨hsorted, hindex, -⟩ := storeLaw_iff.1 h
  have hkeys : (s.keyIndex.map (·.1)).Nodup := by
    rw [List.nodup_iff_pairwise_ne, List.pairwise_map]
    exact hsorted.imp fun hlt heq => absurd hlt (by rw [heq]; exact lt_irrefl _)
  exact congrArg Prod.snd (List.inj_on_of_nodup_map hkeys ((hindex k i).2 hi) ((hindex k j).2 hj) rfl)

/-- A record placed in a FREE slot at the head of the list, under a key not in the index. -/
theorem State.StoreLaw.placeRecord {s : State} (h : s.StoreLaw) (hready : s.phase = .ready) {i : SlotNo}
    {rest : List SlotNo} {r : Record} (hfree : s.freeList = i :: rest) (hkey : ∀ e ∈ s.keyIndex, e.1 ≠ r.key)
    (hzero : r.key ≠ 0) : (s.placeRecord i rest r).StoreLaw := by
  obtain ⟨hsorted, hindex, hnonzero, hlist, -⟩ := storeLaw_iff.1 h
  obtain ⟨hnodup, hmem⟩ := hlist hready
  rw [hfree, List.nodup_cons] at hnodup
  obtain ⟨hout, hrest⟩ := hnodup
  have hempty : s.keyAt i = none := (hmem i).1 (by simp [hfree])
  have hat : ∀ j, (s.placeRecord i rest r).keyAt j = if i = j then some r.key else s.keyAt j := fun j => by
    rw [State.keyAt, record_placeRecord]
    split <;> rfl
  refine storeLaw_iff.2 ⟨pairwise_insertKey _ _ _ hsorted hkey, fun k j => ?_, fun j => ?_, fun _ => ⟨hrest, fun j => ?_⟩,
    fun hnot => absurd hready hnot⟩
  · rw [show (s.placeRecord i rest r).keyIndex = insertKey r.key i s.keyIndex from rfl, mem_insertKey, hat, hindex]
    by_cases hj : i = j
    · subst hj; simp [hempty, eq_comm]
    · simp [hj, Ne.symm hj]
  · rw [hat]
    split
    · simpa using hzero
    · exact hnonzero j
  · rw [hat]
    by_cases hj : i = j
    · subst hj
      have hrest : i ∉ (s.placeRecord i rest r).freeList := hout
      simpa using hrest
    · rw [if_neg hj, ← hmem, hfree, List.mem_cons, or_iff_right (Ne.symm hj)]
      rfl

/-- A record removed with its key, and its slot put at the tail of the list. -/
theorem State.StoreLaw.removed {s t : State} (h : s.StoreLaw) {i : SlotNo} {r : Record} (hrec : s.record i = some r)
    (hat : ∀ j, t.record j = if i = j then none else s.record j) (hkeys : t.keyIndex = eraseKey r.key s.keyIndex)
    (hfree : t.freeList = s.freeList ++ [i]) (hphase : t.phase = s.phase) : t.StoreLaw := by
  have hki : s.keyAt i = some r.key := keyAt_eq_some.2 ⟨r, hrec, rfl⟩
  have hat : ∀ j, t.keyAt j = if i = j then none else s.keyAt j := fun j => by
    rw [State.keyAt, hat]
    split <;> rfl
  obtain ⟨hsorted, hindex, hnonzero, hlist, hquiet⟩ := storeLaw_iff.1 h
  refine storeLaw_iff.2 ⟨?_, fun k j => ?_, fun j => ?_, fun hready => ?_, fun hnot j => ?_⟩
  · rw [hkeys]
    exact hsorted.filter _
  · rw [hkeys, mem_eraseKey, hindex, hat]
    by_cases hj : i = j
    · subst hj; simp [hki, eq_comm]
    · rw [if_neg hj]
      refine and_iff_left_of_imp fun hk heq => hj ?_
      exact h.slot_of_key hki (heq ▸ hk)
  · rw [hat]
    split
    · simp
    · exact hnonzero j
  · rw [hphase] at hready
    obtain ⟨hnodup, hmem⟩ := hlist hready
    have hout : i ∉ s.freeList := fun hin => by
      rw [hmem, hki] at hin
      cases hin
    rw [hfree]
    refine ⟨List.nodup_append.2 ⟨hnodup, List.nodup_singleton i, fun x hx y hy hxy => ?_⟩, fun j => ?_⟩
    · rw [List.mem_singleton.1 hy] at hxy
      exact hout (hxy ▸ hx)
    · rw [hat, List.mem_append, List.mem_singleton, hmem]
      by_cases hj : i = j
      · simp [hj]
      · simp [hj, Ne.symm hj]
  · rw [hphase] at hnot
    rw [hat]
    split
    · rfl
    · exact hquiet hnot j

/-- The field check of CREATE leaves no key 0 (R14). -/
theorem key_of_parseCreate {o : Byte} {body : List Byte} {f : CreateFields} (h : parseCreate o body = some f) :
    f.key ≠ 0 := by
  unfold parseCreate at h
  split at h
  · split at h
    · split at h
      · cases h
      · next hlim =>
        cases h
        exact (not_or.1 hlim).1
    · cases h
  · cases h

theorem record_dismantle (s : State) (i j : SlotNo) (r : Record) :
    (s.dismantle i r).record j = if i = j then none else s.record j := by
  have hslots : (s.dismantle i r).record j = ((s.parkBound r.binding).setRecord i none).record j := rfl
  rw [hslots, State.record_setRecord, State.record_congr (slots_parkBound s r.binding)]

theorem dismantle_phase (s : State) (i : SlotNo) (r : Record) : (s.dismantle i r).phase = s.phase := by
  unfold State.dismantle
  rw [parkBound_frame]
  rfl

theorem record_unbindRecord (s : State) (i j : SlotNo) : (s.unbindRecord i).record j =
    if i = j then (s.record i).map fun r => { r with binding := none, revision := r.revision + 1 } else s.record j := by
  unfold State.unbindRecord
  cases hrec : s.record i with
  | none =>
    by_cases hj : i = j
    · subst hj; simp [hrec]
    · simp [hj]
  | some r => exact State.record_setRecord s i j _

theorem State.StoreLaw.carried {s t : State} {q : Request} {k : ReqKind} (hready : s.phase = .ready)
    (ht : s.Carried q k t) (h : s.StoreLaw) : t.StoreLaw := by
  cases ht with
  | touched k _ ht =>
    obtain ⟨i, r, r', htouch, hstep, -⟩ := ht
    exact h.touch htouch hstep.key_binding.1
  | attachOver n _ => exact (h.lapseAgent q.agent).same rfl rfl rfl rfl
  | detach => exact h.detachAgent q.agent
  | restart =>
    have hnone : ∀ i, s.restartAll.keyAt i = none := fun i => keyAt_eq_none.2 (record_restartAll s i)
    have hindex : s.restartAll.keyIndex = [] := by rw [restartAll_frame]
    have hfree : s.restartAll.freeList = allSlots := by rw [restartAll_frame]
    exact storeLaw_iff.2 ⟨by simp [hindex], by simp [hindex, hnone], by simp [hnone], fun _ => freeList_complete hfree hnone,
      fun _ => hnone⟩
  | setRights b c rs =>
    rw [setRightsOf_frame]
    exact h.same rfl rfl rfl rfl
  | create f i rest _ hparse hkey hfree _ _ => exact h.placeRecord hready hfree hkey (key_of_parseCreate hparse)
  | retire hd r hrec =>
    exact h.removed hrec (fun j => record_dismantle _ hd.slot j r) rfl rfl (dismantle_phase _ hd.slot r)
  | fetchAttention =>
    unfold State.fetched
    rw [clearSupervisor_frame]
    exact h.same rfl rfl rfl rfl
  | bind c hd r hrec _ _ =>
    exact h.congr (keyAt_setRecord_same (r' := { r with binding := some c, revision := r.revision + 1 }) hrec rfl)
      rfl rfl rfl
  | unbind c i _ =>
    have hframe := unbindRecord_frame s i
    refine h.congr (fun j => ?_) (by rw [hframe]; rfl) (by rw [hframe]; rfl) (by rw [hframe]; rfl)
    show ((s.unbindRecord i).record j).map (·.key) = _
    rw [record_unbindRecord]
    split
    · next hj => subst hj; simp [State.keyAt, Function.comp_def]
    · rfl
  | _ => exact h.same rfl rfl rfl rfl

/-- At the rise of READY no record is active, and the list holds every slot. -/
theorem State.StoreLaw.readyRise {s t : State} (h : s.StoreLaw) (hbefore : s.phase ≠ .ready) (hslots : t.slots = s.slots)
    (hindex : t.keyIndex = s.keyIndex) (hfree : t.freeList = allSlots) (hready : t.phase = .ready) : t.StoreLaw := by
  obtain ⟨hsorted, hmem, hnonzero, -, hquiet⟩ := storeLaw_iff.1 h
  rw [storeLaw_iff, hindex]
  simp only [State.keyAt_congr hslots]
  exact ⟨hsorted, hmem, hnonzero, fun _ => freeList_complete hfree (hquiet hbefore), fun hnot => absurd hready hnot⟩

theorem State.StoreLaw.worked {s t : State} (ht : s.Worked t) (h : s.StoreLaw) : t.StoreLaw := by
  have hexpire : ∀ u : State, u.StoreLaw → u.expireAll.StoreLaw := fun u hu => by
    unfold State.expireAll
    rw [expireLink_eq]
    exact hu.same rfl rfl rfl rfl
  have hcount : ∀ u : State, u.StoreLaw → u.countDown.StoreLaw := fun u hu => hu.same rfl rfl rfl rfl
  cases ht with
  | lapse a _ _ => exact State.StoreLaw.lapseAgent (s := s.grantInternal) (h.same rfl rfl rfl rfl) a
  | sweepVisit i r w _ hrec =>
    have hgrant : s.grantInternal.StoreLaw := h.same rfl rfl rfl rfl
    rcases visit_touch (s := s.grantInternal) hrec with hsame | ⟨v, n, htouch⟩
    · rw [hsame]; exact h.same rfl rfl rfl rfl
    · exact (hgrant.touch htouch rfl).same rfl rfl rfl rfl
  | tickWithin => exact hexpire _ (hcount _ (hexpire s h))
  | tickApart => exact hcount _ (hexpire s h)
  | ackExpiry => rw [expireLink_eq]; exact h.same rfl rfl rfl rfl
  | release low0 low1 hphase =>
    obtain ⟨hsorted, hindex, hnonzero, -, hquiet⟩ := storeLaw_iff.1 h
    exact storeLaw_iff.2 ⟨hsorted, hindex, hnonzero, fun hready => (by cases hready),
      fun _ => hquiet (by rw [hphase]; decide)⟩
  | ready levels hphase =>
    exact h.readyRise (by rw [hphase]; decide) rfl rfl (by dsimp only) rfl
  | _ => exact h.same rfl rfl rfl rfl

theorem exec_keeps_storeLaw {c : Instr} {s t : State} (h : s.StoreLaw) (hexec : exec c s = .next t) : t.StoreLaw :=
  exec_keeps (fun hsame h => h.same hsame.slots hsame.keyIndex hsame.freeList hsame.phase)
    (fun _ _ _ h => h.same rfl rfl rfl rfl) .carried .worked (fun s => (laws_resetAssert s).store) h hexec

end Sys2Proof.Machine
end

section
/-! PROOF. The laws of owners, claimants and watchers, of the bindings and of the quiet before READY, kept by every
command (R6, R71, R125, R139, R140, R174), and all the laws together. -/
namespace Sys2Proof.Machine

/-! ### Owners, claimants and watchers (R6, R71, R125) -/

/-- Every agent with a part in the record is one of `A`. -/
def Record.MembersIn (r : Record) (A : Agent → Prop) : Prop :=
  (∀ a, r.state = .held a → A a) ∧ (∀ a ∈ r.queue, A a) ∧ ∀ a, r.watchers.mem a = true → A a

section
variable {r r' : Record} {A B : Agent → Prop}

theorem Record.MembersIn.mono (h : r.MembersIn A) (hsub : ∀ a, A a → B a) : r.MembersIn B :=
  ⟨fun a ha => hsub a (h.1 a ha), fun a ha => hsub a (h.2.1 a ha), fun a ha => hsub a (h.2.2 a ha)⟩

theorem Record.MembersIn.congr (h : r.MembersIn A) (hstate : r'.state = r.state) (hqueue : r'.queue = r.queue)
    (hwatchers : r'.watchers = r.watchers) : r'.MembersIn A := by
  unfold Record.MembersIn
  rw [hstate, hqueue, hwatchers]
  exact h

/-- A step of a requester in `A` brings in no other agent. -/
theorem Record.MembersIn.step {a : Agent} (h : r.MembersIn A) (hstep : Record.Step a r r') (ha : A a) :
    r'.MembersIn A := by
  obtain ⟨hstate, hqueue, hwatchers⟩ := h
  obtain ⟨gstate, gqueue, gwatchers⟩ := hstep.members
  refine ⟨fun b hb => ?_, fun b hb => ?_, fun b hb => ?_⟩
  · rcases gstate b hb with h | h | rfl
    · exact hstate b h
    · exact hqueue b h
    · exact ha
  · rcases gqueue b hb with h | rfl
    · exact hqueue b h
    · exact ha
  · rcases gwatchers b hb with h | rfl
    · exact hwatchers b h
    · exact ha

/-- The record given up by its owner is held by no agent but the head waiter. -/
theorem membersIn_passOn (hqueue : ∀ a ∈ r.queue, A a) (hwatchers : ∀ a, r.watchers.mem a = true → A a) :
    r.passOn.MembersIn A := by
  rcases passOn_cases r with ⟨hnil, hr⟩ | ⟨w, ws, hcons, hr⟩
  · rw [hr]
    exact ⟨fun a ha => (by cases ha), hqueue, hwatchers⟩
  · rw [hr]
    rw [hcons] at hqueue
    exact ⟨fun a ha => (by cases ha; exact hqueue w (by simp)), fun a ha => hqueue a (by simp [ha]), hwatchers⟩

theorem membersIn_afterLapse (t : Trigger) (hqueue : ∀ a ∈ r.queue, A a)
    (hwatchers : ∀ a, r.watchers.mem a = true → A a) : (r.afterLapse t).MembersIn A := by
  have hkept : (r.afterLapse t).watchers = r.watchers := by rw [afterLapse_frame]
  unfold Record.MembersIn
  rw [hkept]
  rcases afterLapse_cases r t with ⟨-, hs, hq⟩ | ⟨w, ws, hcons, hs, hq⟩
  · rw [hs, hq]
    exact ⟨fun a ha => (by cases ha), fun a ha => (by cases ha), hwatchers⟩
  · rw [hs, hq]
    rw [hcons] at hqueue
    exact ⟨fun a ha => (by cases ha; exact hqueue w (by simp)), fun a ha => hqueue a (by simp [ha]), hwatchers⟩

/-- An agent taken out of the queue and the watcher set has no part in them. -/
theorem dropAgent_others {a : Agent} (h : r.MembersIn A) :
    (∀ b ∈ (r.dropAgent a).queue, A b ∧ b ≠ a) ∧ ∀ b, (r.dropAgent a).watchers.mem b = true → A b ∧ b ≠ a := by
  obtain ⟨-, hqueue, hwatchers⟩ := h
  refine ⟨fun b hb => ?_, fun b hb => ?_⟩
  · obtain ⟨hmem, hne⟩ := List.mem_filter.1 hb
    exact ⟨hqueue b hmem, by simpa using hne⟩
  · have hb : (r.watchers.erase a).mem b = true := hb
    obtain ⟨hne, hmem⟩ : a ≠ b ∧ r.watchers.mem b = true := by simpa using hb
    exact ⟨hwatchers b hmem, hne.symm⟩

theorem membersIn_dropAgent {a : Agent} (h : r.MembersIn A) (hother : r.state ≠ .held a) :
    (r.dropAgent a).MembersIn fun b => A b ∧ b ≠ a := by
  obtain ⟨hqueue, hwatchers⟩ := dropAgent_others (a := a) h
  exact ⟨fun b hb => ⟨h.1 b hb, fun heq => hother (heq ▸ hb)⟩, hqueue, hwatchers⟩

end

/-- The law is kept where each record has the members it had or fewer, and the ATTACHED sessions stay ATTACHED. -/
theorem State.MembersLaw.of_records {s t : State} (h : s.MembersLaw)
    (hrec : ∀ i x, t.record i = some x → ∃ r, s.record i = some r ∧ x.state = r.state ∧ x.queue = r.queue
      ∧ x.watchers = r.watchers)
    (hrows : ∀ a, (s.row a).state = .attached → (t.row a).state = .attached) : t.MembersLaw := by
  intro i x hx
  obtain ⟨r, hr, hstate, hqueue, hwatchers⟩ := hrec i x hx
  exact (Record.MembersIn.mono (h i r hr) hrows).congr hstate hqueue hwatchers

theorem State.MembersLaw.same {s t : State} (h : s.MembersLaw) (hslots : t.slots = s.slots)
    (hrows : ∀ a, (s.row a).state = .attached → (t.row a).state = .attached) : t.MembersLaw :=
  h.of_records (fun i x hx => ⟨x, by rw [← State.record_congr hslots]; exact hx, rfl, rfl, rfl⟩) hrows

theorem State.MembersLaw.congr {s t : State} (h : s.MembersLaw) (hslots : t.slots = s.slots)
    (hagents : t.agents = s.agents) : t.MembersLaw :=
  h.same hslots fun a ha => by rw [State.row_congr hagents]; exact ha

/-- Work on one record keeps the law when the record keeps its members within the ATTACHED. -/
theorem State.MembersLaw.touch {s t : State} {i : SlotNo} {r r' : Record} (h : s.MembersLaw) (ht : s.Touch i r r' t)
    (hmembers : r'.MembersIn fun a => (s.row a).state = .attached) : t.MembersLaw := by
  intro j x hx
  have hrows : ∀ a, (s.row a).state = .attached → (t.row a).state = .attached := fun a ha =>
    ((ht.told a).sameSession.state).trans ha
  rw [ht.record_eq] at hx
  split at hx
  · cases hx; exact hmembers.mono hrows
  · exact Record.MembersIn.mono (h j x hx) hrows

/-- An agent out of every queue and watcher set, whose records are given up, may leave. -/
theorem State.MembersLaw.without {s t : State} (h : s.MembersLaw) (a : Agent) {f : Record → Record}
    (hrec : ∀ i, t.record i = (s.record i).map fun r => if r.state = .held a then f (r.dropAgent a) else r.dropAgent a)
    (hf : ∀ r (A : Agent → Prop), (∀ b ∈ r.queue, A b) → (∀ b, r.watchers.mem b = true → A b) → (f r).MembersIn A)
    (hrows : ∀ b, b ≠ a → (t.row b).state = (s.row b).state) : t.MembersLaw := by
  intro i x hx
  rw [hrec, Option.map_eq_some_iff] at hx
  obtain ⟨r, hr, rfl⟩ := hx
  have hleft : ∀ b, (s.row b).state = .attached ∧ b ≠ a → (t.row b).state = .attached := fun b hb =>
    (hrows b hb.2).trans hb.1
  refine Record.MembersIn.mono ?_ hleft
  split
  · obtain ⟨hqueue, hwatchers⟩ := dropAgent_others (a := a) (h i r hr)
    exact hf _ _ hqueue hwatchers
  · next hother => exact membersIn_dropAgent (h i r hr) hother

theorem State.MembersLaw.lapseAgent {s : State} (h : s.MembersLaw) (a : Agent) : (s.lapseAgent a).MembersLaw := by
  refine State.MembersLaw.without (f := fun r => r.afterLapse (s.triggerOf r.group)) h a (record_lapseAgent s a)
    (fun r A => membersIn_afterLapse _) fun b hb => ?_
  exact ((row_lapseAgent s a b).2 hb).sameSession.state

theorem State.MembersLaw.detachAgent {s : State} (h : s.MembersLaw) (a : Agent) : (s.detachAgent a).MembersLaw := by
  refine State.MembersLaw.without (f := Record.passOn) h a (record_detachAgent s a) (fun r A => membersIn_passOn)
    fun b hb => ?_
  exact ((row_detachAgent s a b).2 hb).sameSession.state

theorem State.MembersLaw.setRow {s : State} (h : s.MembersLaw) (a : Agent) {row : AgentRow}
    (hrow : (s.row a).state = .attached → row.state = .attached) : (s.setRow a row).MembersLaw := by
  refine h.same rfl fun b hb => ?_
  rw [State.row_setRow]
  split
  · next heq => subst heq; exact hrow hb
  · exact hb

theorem membersLaw_of_no_record {s : State} (h : ∀ i, s.record i = none) : s.MembersLaw := by
  intro i r hr
  rw [h] at hr
  cases hr

theorem State.MembersLaw.placeRecord {s : State} (h : s.MembersLaw) (i : SlotNo) (rest : List SlotNo) {r : Record}
    (hr : r.MembersIn fun a => (s.row a).state = .attached) : (s.placeRecord i rest r).MembersLaw := by
  intro j x hx
  rw [record_placeRecord] at hx
  split at hx
  · cases hx; exact hr
  · exact h j x hx

theorem membersIn_newRecord {A : Agent → Prop} {a : Agent} (ha : A a) (f : CreateFields) :
    (newRecord a f).MembersIn A := by
  refine ⟨fun b hb => ?_, fun b hb => (by cases hb), fun b hb => (by simp [newRecord] at hb)⟩
  by_cases hu : f.unowned = true
  · simp [newRecord, hu] at hb
  · simp [newRecord, hu] at hb
    exact hb ▸ ha

theorem State.MembersLaw.carried {s t : State} {q : Request} {k : ReqKind} (ht : s.Carried q k t) (h : s.MembersLaw) :
    t.MembersLaw := by
  cases ht with
  | touched k hsender ht =>
    obtain ⟨i, r, r', htouch, hstep, -⟩ := ht
    exact h.touch htouch (Record.MembersIn.step (h i r htouch.record) hstep hsender)
  | attach n _ => exact h.setRow q.agent fun _ => rfl
  | attachOver n _ => exact (h.lapseAgent q.agent).setRow q.agent fun _ => rfl
  | detach => exact h.detachAgent q.agent
  | restart => exact membersLaw_of_no_record (record_restartAll s)
  | setRights b c rs => exact h.congr (slots_setRightsOf s b c rs) (by rw [setRightsOf_frame])
  | create f i rest hsender _ _ _ _ _ => exact h.placeRecord i rest (membersIn_newRecord hsender f)
  | retire hd r hrec =>
    refine h.of_records (fun j x hx => ?_) fun a ha => ?_
    · rw [record_dismantle] at hx
      split at hx
      · cases hx
      · exact ⟨x, hx, rfl, rfl, rfl⟩
    · have hagents : ((s.conditionAll (r.retireTold q.agent) .retired hd r.key).dismantle hd.slot r).agents
          = (s.conditionAll (r.retireTold q.agent) .retired hd r.key).agents := by
        unfold State.dismantle
        rw [parkBound_frame]
        rfl
      rw [State.row_congr hagents]
      exact (row_told_conditionAll s _ a _ _ _).sameSession.state.trans ha
  | fetchAttention =>
    unfold State.fetched
    rw [clearSupervisor_frame]
    have hrow := h.setRow q.agent (row := { (s.row q.agent) with
      overflow := false, attention := (s.row q.agent).attention.drop Config.fetchMax }) fun ha => ha
    exact hrow.congr rfl rfl
  | bind c hd r hrec _ _ =>
    refine h.of_records (fun j x hx => ?_) fun a ha => ha
    have hat := (State.record_setRecord s hd.slot j _).symm.trans hx
    split at hat
    · next hj => subst hj; cases hat; exact ⟨r, hrec, rfl, rfl, rfl⟩
    · exact ⟨x, hat, rfl, rfl, rfl⟩
  | unbind c i _ =>
    refine h.of_records (fun j x hx => ?_) fun a ha => by rw [unbindRecord_frame]; exact ha
    have hat := (record_unbindRecord s i j).symm.trans hx
    split at hat
    · next hj =>
      subst hj
      obtain ⟨r, hr, rfl⟩ := Option.map_eq_some_iff.1 hat
      exact ⟨r, hr, rfl, rfl, rfl⟩
    · exact ⟨x, hat, rfl, rfl, rfl⟩
  | _ => exact h.congr rfl rfl

theorem State.MembersLaw.worked {s t : State} (ht : s.Worked t) (h : s.MembersLaw) : t.MembersLaw := by
  have hexpire : ∀ u : State, u.MembersLaw → u.expireAll.MembersLaw := fun u hu =>
    hu.same (slots_expireAll u) fun a ha => by rw [row_expireAll, state_expire]; exact ha
  have hcount : ∀ u : State, u.MembersLaw → u.countDown.MembersLaw := fun u hu =>
    hu.same rfl fun a ha => by rw [row_countDown]; exact ha
  cases ht with
  | lapse a _ _ => exact State.MembersLaw.lapseAgent (s := s.grantInternal) h a
  | sweepVisit i r w _ hrec =>
    rcases visit_touch (s := s.grantInternal) hrec with hsame | ⟨v, n, htouch⟩
    · rw [hsame]; exact h.congr rfl rfl
    · have hvisit := State.MembersLaw.touch (s := s.grantInternal) h htouch (Record.MembersIn.congr (h i r hrec) rfl rfl rfl)
      exact hvisit.congr rfl rfl
  | tickWithin => exact hexpire _ (hcount _ (hexpire s h))
  | tickApart => exact hcount _ (hexpire s h)
  | keepaliveExpiry a => exact h.setRow a fun ha => by rw [state_expire]; exact ha
  | ackExpiry => exact h.congr (slots_expireLink s) (by rw [expireLink_eq])
  | _ => exact h.congr rfl rfl

theorem exec_keeps_membersLaw {c : Instr} {s t : State} (h : s.MembersLaw) (hexec : exec c s = .next t) :
    t.MembersLaw :=
  exec_keeps (fun hsame h => h.congr hsame.slots hsame.agents) (fun _ a _ h => h.setRow a fun ha => ha)
    (fun _ => .carried) .worked (fun s => (laws_resetAssert s).members) h hexec

/-! ### The bindings (R139, R140) -/

theorem channel_noticeChange (s : State) (b : Option ChannelNo) (old new : Value) (c : ChannelNo) :
    (s.noticeChange b old new).channel c =
      if b = some c ∧ old ≠ new then { (s.channel c) with driven := new } else s.channel c := by
  rcases noticeChange_cases s b old new with ⟨hquiet, h⟩ | ⟨d, rfl, hne, h⟩
  · rw [h, if_neg]
    rintro ⟨rfl, hne⟩
    rcases hquiet with hb | heq
    · cases hb
    · exact hne heq
  · rw [h, channel_notice]
    by_cases hd : d = c
    · simp [hd, hne]
    · simp [hd]

/-- The law of the bindings speaks of a record by its binding and its live value, and of a channel by its binding, its
driven value and its park value. -/
theorem State.BindingLaw.of_faces {s t : State} (h : s.BindingLaw)
    (hrec : ∀ i, (t.record i).map (fun r => (r.binding, r.live)) = (s.record i).map fun r => (r.binding, r.live))
    (hchannel : ∀ c, (t.channel c).binding = (s.channel c).binding ∧ (t.channel c).driven = (s.channel c).driven
      ∧ (t.channel c).park = (s.channel c).park) : t.BindingLaw := by
  have hback : ∀ i r, t.record i = some r → ∃ x, s.record i = some x ∧ x.binding = r.binding ∧ x.live = r.live := by
    intro i r hr
    have hface := hrec i
    rw [hr, Option.map_some, eq_comm, Option.map_eq_some_iff] at hface
    obtain ⟨x, hx, heq⟩ := hface
    obtain ⟨hbinding, hlive⟩ := Prod.mk.inj heq
    exact ⟨x, hx, hbinding, hlive⟩
  have hforth : ∀ i r, s.record i = some r → ∃ x, t.record i = some x ∧ x.binding = r.binding := by
    intro i r hr
    have hface := hrec i
    rw [hr, Option.map_some, Option.map_eq_some_iff] at hface
    obtain ⟨x, hx, heq⟩ := hface
    exact ⟨x, hx, (Prod.mk.inj heq).1⟩
  obtain ⟨hjoined, hdriven, hparked⟩ := h
  refine ⟨fun c i => ?_, fun c i r hbound hr => ?_, fun c hunbound => ?_⟩
  · rw [(hchannel c).1, hjoined]
    constructor
    · rintro ⟨r, hr, hb⟩
      obtain ⟨x, hx, hbinding⟩ := hforth i r hr
      exact ⟨x, hx, hbinding.trans hb⟩
    · rintro ⟨r, hr, hb⟩
      obtain ⟨x, hx, hbinding, -⟩ := hback i r hr
      exact ⟨x, hx, hbinding.trans hb⟩
  · obtain ⟨x, hx, -, hlive⟩ := hback i r hr
    rw [(hchannel c).1] at hbound
    rw [(hchannel c).2.1, hdriven c i x hbound hx, hlive]
  · rw [(hchannel c).1] at hunbound
    rw [(hchannel c).2.1, (hchannel c).2.2]
    exact hparked c hunbound

theorem State.BindingLaw.congr {s t : State} (h : s.BindingLaw) (hslots : t.slots = s.slots)
    (hchannels : t.channels = s.channels) : t.BindingLaw :=
  h.of_faces (fun i => by rw [State.record_congr hslots]) fun c => by
    rw [State.channel_congr hchannels]; exact ⟨rfl, rfl, rfl⟩

/-- Work on one record keeps its binding, and drives its channel with a changed live value. -/
theorem State.BindingLaw.touch {s t : State} {i : SlotNo} {r r' : Record} (h : s.BindingLaw) (ht : s.Touch i r r' t)
    (hbinding : r'.binding = r.binding) : t.BindingLaw := by
  have hchannel : ∀ c, t.channel c =
      if r.binding = some c ∧ r.live ≠ r'.live then { (s.channel c) with driven := r'.live } else s.channel c :=
    fun c => by rw [State.channel_congr ht.channels, channel_noticeChange]
  have hkept : ∀ c, (t.channel c).binding = (s.channel c).binding ∧ (t.channel c).park = (s.channel c).park :=
    fun c => by rw [hchannel]; split <;> exact ⟨rfl, rfl⟩
  obtain ⟨hjoined, hdriven, hparked⟩ := h
  refine ⟨fun c j => ?_, fun c j x hbound hx => ?_, fun c hunbound => ?_⟩
  · rw [(hkept c).1, hjoined, ht.record_eq]
    by_cases hj : i = j
    · subst hj; simp [ht.record, hbinding]
    · simp [hj]
  · rw [(hkept c).1] at hbound
    rw [ht.record_eq] at hx
    by_cases hj : i = j
    · subst hj
      rw [if_pos rfl] at hx
      cases hx
      obtain ⟨y, hy, hyc⟩ := (hjoined c i).1 hbound
      rw [ht.record] at hy
      cases hy
      rw [hchannel]
      by_cases hlive : r.live = r'.live
      · rw [if_neg fun hc => hc.2 hlive, hdriven c i r hbound ht.record, hlive]
      · rw [if_pos ⟨hyc, hlive⟩]
    · rw [if_neg hj] at hx
      have hother : r.binding ≠ some c := fun hc => hj (by
        have := (hjoined c i).2 ⟨r, ht.record, hc⟩
        rw [hbound] at this
        exact (Option.some.inj this).symm)
      rw [hchannel, if_neg fun hc => hother hc.1]
      exact hdriven c j x hbound hx
  · rw [(hkept c).1] at hunbound
    have hother : r.binding ≠ some c := fun hc => by
      rw [(hjoined c i).2 ⟨r, ht.record, hc⟩] at hunbound
      cases hunbound
    rw [hchannel, if_neg fun hc => hother hc.1]
    exact hparked c hunbound

/-- A slot's record written to be unbound or gone, and the channel bound to it parked. -/
theorem State.BindingLaw.unjoin {s t : State} (h : s.BindingLaw) {i : SlotNo} {x : Option Record}
    (hx : ∀ r, x = some r → r.binding = none) (hrec : ∀ j, t.record j = if i = j then x else s.record j)
    (hchannel : ∀ c, t.channel c = if (s.channel c).binding = some i
      then { (s.channel c) with binding := none, driven := (s.channel c).park } else s.channel c) : t.BindingLaw := by
  obtain ⟨hjoined, hdriven, hparked⟩ := h
  have hbinding : ∀ c j, (t.channel c).binding = some j → i ≠ j ∧ t.channel c = s.channel c := fun c j hb => by
    rw [hchannel] at hb ⊢
    by_cases hc : (s.channel c).binding = some i
    · rw [if_pos hc] at hb; cases hb
    · rw [if_neg hc] at hb ⊢
      exact ⟨fun hj => hc (hj ▸ hb), rfl⟩
  refine ⟨fun c j => ⟨fun hb => ?_, ?_⟩, fun c j r hb hr => ?_, fun c hunbound => ?_⟩
  · obtain ⟨hj, hsame⟩ := hbinding c j hb
    rw [hrec, if_neg hj]
    exact (hjoined c j).1 (hsame ▸ hb)
  · rintro ⟨r, hr, hc⟩
    rw [hrec] at hr
    by_cases hj : i = j
    · rw [if_pos hj] at hr
      rw [hx r hr] at hc
      cases hc
    · rw [if_neg hj] at hr
      have hb := (hjoined c j).2 ⟨r, hr, hc⟩
      rw [hchannel, if_neg fun hi => hj (Option.some.inj (hi.symm.trans hb))]
      exact hb
  · obtain ⟨hj, hsame⟩ := hbinding c j hb
    rw [hrec, if_neg hj] at hr
    rw [hsame] at hb ⊢
    exact hdriven c j r hb hr
  · rw [hchannel] at hunbound ⊢
    by_cases hc : (s.channel c).binding = some i
    · rw [if_pos hc]
    · rw [if_neg hc] at hunbound ⊢
      exact hparked c hunbound

/-- Under the law, a channel bound to a slot is the one that the slot's record names. -/
theorem State.BindingLaw.channel_iff {s : State} (h : s.BindingLaw) {i : SlotNo} {r : Record}
    (hrec : s.record i = some r) (c : ChannelNo) : (s.channel c).binding = some i ↔ r.binding = some c := by
  rw [h.1]
  simp [hrec]

theorem channel_parkBound (s : State) (b : Option ChannelNo) (c : ChannelNo) : (s.parkBound b).channel c =
    if b = some c then { (s.channel c) with binding := none, driven := (s.channel c).park } else s.channel c := by
  unfold State.parkBound
  split
  · simp
  · rw [channel_parkChannel]; simp

theorem State.BindingLaw.touchedBy {s t : State} {a : Agent} (ht : s.TouchedBy a t) (h : s.BindingLaw) :
    t.BindingLaw := by
  obtain ⟨i, r, r', htouch, hstep, -⟩ := ht
  exact h.touch htouch hstep.key_binding.2

theorem State.BindingLaw.dropAgent {s : State} (h : s.BindingLaw) (a : Agent) : (s.dropAgent a).BindingLaw :=
  h.of_faces (fun i => by rw [record_dropAgent, Option.map_map]; rfl) fun _ => ⟨rfl, rfl, rfl⟩

theorem State.BindingLaw.lapseAgent {s : State} (h : s.BindingLaw) (a : Agent) : (s.lapseAgent a).BindingLaw := by
  have hlose : (s.loseSession a).BindingLaw := by
    unfold State.loseSession
    rw [clearSupervisor_frame]
    exact (h.congr rfl rfl : (s.setRow a (s.row a).lose).BindingLaw).dropAgent a
  unfold State.lapseAgent
  rw [recordLoss_frame]
  exact foldl_keeps (P := State.BindingLaw) (a := a) .touchedBy (fun s i => lapseStep_touched s a i) _ hlose

theorem State.BindingLaw.detachAgent {s : State} (h : s.BindingLaw) (a : Agent) : (s.detachAgent a).BindingLaw := by
  unfold State.detachAgent
  rw [clearSupervisor_frame]
  exact foldl_keeps (P := State.BindingLaw) (a := a) .touchedBy (fun s i => releaseSlot_touched s a i) _ (h.dropAgent a)

/-- A RESTART parks every bound channel. -/
theorem channel_restartAll (s : State) (c : ChannelNo) : s.restartAll.channel c =
    if (s.channel c).binding.isSome = true then { (s.channel c) with binding := none, driven := (s.channel c).park }
    else s.channel c := by
  have hmem : c ∈ rankOrder (Config.restartRank s.freeDraws) s.boundChannels ↔ (s.channel c).binding.isSome = true := by
    rw [(rankOrder_perm _ _).mem_iff]
    simp [State.boundChannels, allChannels]
  have hparked : s.restartAll.channel c = s.parkAll.channel c := rfl
  rw [hparked, State.parkAll, channel_foldl_parkChannel]
  simp only [hmem]
  rfl

theorem State.BindingLaw.restartAll {s : State} (h : s.BindingLaw) : s.restartAll.BindingLaw := by
  obtain ⟨-, -, hparked⟩ := h
  have hunbound : ∀ c, (s.restartAll.channel c).binding = none := fun c => by
    rw [channel_restartAll]
    split
    · rfl
    · next hc => simpa using hc
  refine ⟨by simp [record_restartAll, hunbound], by simp [record_restartAll], fun c _ => ?_⟩
  rw [channel_restartAll]
  split
  · rfl
  · next hc => exact hparked c (by simpa using hc)

/-- An unbound record joined to an unbound channel, and the channel driven with its live value. -/
theorem State.BindingLaw.join {s : State} (h : s.BindingLaw) {c : ChannelNo} {i : SlotNo} {r : Record}
    (hrec : s.record i = some r) (hunbound : (s.channel c).binding = none) (hbinding : r.binding = none) :
    ((s.join c i r).notice c .value r.live).BindingLaw := by
  have hr : ∀ j, ((s.join c i r).notice c .value r.live).record j =
      if i = j then some { r with binding := some c, revision := r.revision + 1 } else s.record j :=
    fun j => State.record_setRecord s i j _
  have hc : ∀ d, ((s.join c i r).notice c .value r.live).channel d =
      if c = d then { (s.channel c) with binding := some i, driven := r.live } else s.channel d := fun d => by
    rw [channel_notice, State.join, State.channel_setChannel]
    split <;> rfl
  obtain ⟨hjoined, hdriven, hparked⟩ := h
  have hfree : ∀ d, (s.channel d).binding ≠ some i := fun d hd => by
    obtain ⟨x, hx, hxd⟩ := (hjoined d i).1 hd
    rw [hrec] at hx
    cases hx
    rw [hbinding] at hxd
    cases hxd
  have hout : ∀ j x, s.record j = some x → x.binding ≠ some c := fun j x hx hxc => by
    rw [(hjoined c j).2 ⟨x, hx, hxc⟩] at hunbound
    cases hunbound
  refine ⟨fun d j => ?_, fun d j x hb hx => ?_, fun d hb => ?_⟩
  · rw [hc, hr]
    by_cases hd : c = d <;> by_cases hj : i = j
    · subst hd; subst hj; simp
    · subst hd; simp only [if_pos, Option.some.injEq, hj, false_iff, not_exists, not_and]; exact hout j
    · subst hj; simp [hd, hfree d]
    · simp only [if_neg hd, if_neg hj]; exact hjoined d j
  · rw [hc] at hb ⊢
    rw [hr] at hx
    by_cases hd : c = d
    · rw [if_pos hd] at hb ⊢
      rw [if_pos (Option.some.inj hb)] at hx
      cases hx
      rfl
    · rw [if_neg hd] at hb ⊢
      rw [if_neg fun hj : i = j => hfree d (hj ▸ hb)] at hx
      exact hdriven d j x hb hx
  · rw [hc] at hb ⊢
    by_cases hd : c = d
    · rw [if_pos hd] at hb; cases hb
    · rw [if_neg hd] at hb ⊢
      exact hparked d hb

/-- One channel's park value written, with what it drives while unbound. -/
theorem State.BindingLaw.repark {s t : State} (h : s.BindingLaw) {c : ChannelNo} {x : Channel}
    (hslots : t.slots = s.slots) (hchannel : ∀ d, t.channel d = if c = d then x else s.channel d)
    (hbinding : x.binding = (s.channel c).binding)
    (hx : ((s.channel c).binding ≠ none → x.driven = (s.channel c).driven)
      ∧ ((s.channel c).binding = none → x.driven = x.park)) : t.BindingLaw := by
  obtain ⟨hjoined, hdriven, hparked⟩ := h
  have hb : ∀ d, (t.channel d).binding = (s.channel d).binding := fun d => by
    rw [hchannel]
    split
    · next hd => subst hd; exact hbinding
    · rfl
  have hr := State.record_congr hslots
  refine ⟨fun d j => by rw [hb, hr]; exact hjoined d j, fun d j y hbound hy => ?_, fun d hunbound => ?_⟩
  · rw [hb] at hbound
    rw [hr] at hy
    rw [hchannel]
    split
    · next hd => subst hd; rw [hx.1 (by simp [hbound])]; exact hdriven c j y hbound hy
    · exact hdriven d j y hbound hy
  · rw [hb] at hunbound
    rw [hchannel]
    split
    · next hd => subst hd; exact hx.2 hunbound
    · exact hparked d hunbound

theorem State.BindingLaw.carried {s t : State} {q : Request} {k : ReqKind} (hready : s.phase = .ready)
    (ht : s.Carried q k t) (hstore : s.StoreLaw) (h : s.BindingLaw) : t.BindingLaw := by
  cases ht with
  | touched k _ ht => exact h.touchedBy ht
  | attachOver n _ => exact (h.lapseAgent q.agent).congr rfl rfl
  | detach => exact h.detachAgent q.agent
  | restart => exact h.restartAll
  | setRights b c rs => rw [setRightsOf_frame]; exact h.congr rfl rfl
  | create f i rest _ _ _ hfree _ _ =>
    have hempty : s.record i = none := ((hstore.2.2.2.1 hready).2 i).1 (by simp [hfree])
    have hout : ∀ c, (s.channel c).binding ≠ some i := fun c hc => by
      obtain ⟨r, hr, -⟩ := (h.1 c i).1 hc
      rw [hempty] at hr
      cases hr
    refine h.unjoin (fun r hr => ?_) (fun j => record_placeRecord s i j rest _) fun c => (if_neg (hout c)).symm
    cases hr
    rfl
  | retire hd r hrec =>
    refine h.unjoin (fun r hr => by cases hr) (fun j => record_dismantle _ hd.slot j r) fun c => ?_
    simp only [h.channel_iff hrec]
    exact channel_parkBound _ r.binding c
  | fetchAttention => unfold State.fetched; rw [clearSupervisor_frame]; exact h.congr rfl rfl
  | bind c hd r hrec hchannel hbinding => exact h.join hrec hchannel hbinding
  | unbind c i hchannel =>
    obtain ⟨r, hrec, hbinding⟩ := (h.1 c i).1 hchannel
    refine h.unjoin (i := i) (x := some { r with binding := none, revision := r.revision + 1 })
      (fun x hx => by cases hx; rfl) (fun j => ?_) fun d => ?_
    · exact (record_unbindRecord s i j).trans (by rw [hrec]; rfl)
    · rw [channel_parkChannel, unbindRecord_frame]
      simp only [h.channel_iff hrec, hbinding, Option.some.injEq]
      rfl
  | setParkBound c v hchannel =>
    exact h.repark (c := c) rfl (fun d => State.channel_setChannel s c d _) rfl ⟨fun _ => rfl, fun hc => absurd hc hchannel⟩
  | setParkUnbound c v hchannel =>
    refine h.repark (c := c) (x := { (s.channel c) with park := v, driven := v }) rfl (fun d => ?_) rfl
      ⟨fun hc => absurd hchannel hc, fun _ => rfl⟩
    rw [channel_notice, State.channel_setChannel]
    split <;> rfl
  | _ => exact h.congr rfl rfl

theorem State.BindingLaw.worked {s t : State} (ht : s.Worked t) (h : s.BindingLaw) : t.BindingLaw := by
  have hexpire : ∀ u : State, u.BindingLaw → u.expireAll.BindingLaw := fun u hu => by
    unfold State.expireAll
    rw [expireLink_eq]
    exact hu.congr rfl rfl
  have hcount : ∀ u : State, u.BindingLaw → u.countDown.BindingLaw := fun u hu => hu.congr rfl rfl
  cases ht with
  | lapse a _ _ => exact State.BindingLaw.lapseAgent (s := s.grantInternal) h a
  | sweepVisit i r w _ hrec =>
    rcases visit_touch (s := s.grantInternal) hrec with hsame | ⟨v, n, htouch⟩
    · rw [hsame]; exact h.congr rfl rfl
    · have hvisit := State.BindingLaw.touch (s := s.grantInternal) h htouch rfl
      exact hvisit.congr rfl rfl
  | tickWithin => exact hexpire _ (hcount _ (hexpire s h))
  | tickApart => exact hcount _ (hexpire s h)
  | ackExpiry => rw [expireLink_eq]; exact h.congr rfl rfl
  | acknowledge f n m _ =>
    refine h.of_faces (fun _ => rfl) fun c => ?_
    have hchannel : State.channel { s.setChannel f.channel { (s.channel f.channel) with acked := f.value } with
        link := .idle } c = if f.channel = c then { (s.channel f.channel) with acked := f.value } else s.channel c :=
      State.channel_setChannel s f.channel c _
    rw [hchannel]
    split
    · next hc => subst hc; exact ⟨rfl, rfl, rfl⟩
    · exact ⟨rfl, rfl, rfl⟩
  | _ => exact h.congr rfl rfl

theorem exec_keeps_bindingLaw {c : Instr} {s t : State} (hstore : s.StoreLaw) (h : s.BindingLaw)
    (hexec : exec c s = .next t) : t.BindingLaw :=
  (exec_keeps (P := fun u => u.StoreLaw ∧ u.BindingLaw)
    (fun hsame h => ⟨h.1.same hsame.slots hsame.keyIndex hsame.freeList hsame.phase, h.2.congr hsame.slots hsame.channels⟩)
    (fun _ _ _ h => ⟨h.1.same rfl rfl rfl rfl, h.2.congr rfl rfl⟩)
    (fun hready ht h => ⟨.carried hready ht h.1, .carried hready ht h.1 h.2⟩) (fun ht h => ⟨.worked ht h.1, .worked ht h.2⟩)
    (fun s => ⟨(laws_resetAssert s).store, (laws_resetAssert s).bindings⟩) ⟨hstore, h⟩ hexec).2

end Sys2Proof.Machine
end

section
/-! PROOF. The quiet before READY (R172 to R174), kept by every command, and all the laws together. -/
namespace Sys2Proof.Machine

/-! ### READY falls by an assertion of nRST alone -/

theorem phase_expireAll (s : State) : s.expireAll.phase = s.phase := by
  unfold State.expireAll
  rw [expireLink_eq]

theorem worked_phase {s t : State} (h : s.Worked t) (hready : s.phase = .ready) : t.phase = .ready := by
  cases h with
  | lapse a _ _ => exact ((State.SameFront.refl s.grantInternal).lapseAgent a).phase.trans hready
  | sweepVisit i r w _ _ => exact (visit_sameFront s.grantInternal i r).phase.trans hready
  | tickWithin => rw [phase_expireAll]; exact (phase_expireAll s).trans hready
  | tickApart => exact (phase_expireAll s).trans hready
  | ackExpiry => rw [expireLink_eq]; exact hready
  | release low0 low1 hphase => rw [hphase] at hready; cases hready
  | ready => rfl
  | _ => exact hready

theorem exec_phase {c : Instr} {s t : State} (h : exec c s = .next t) (hready : s.phase = .ready) :
    t = resetAssert s ∨ t.phase = .ready := by
  rcases exec_tables h with ht | ⟨k, p, x, f, -, hoffers, ht⟩ | hown
  · exact .inr (ht.phase.trans hready)
  · exact .inr (ht.phase.trans ((admission_sameFront k p f _).phase.trans hready))
  · rcases exec_own_worked hown h with ⟨-, ht⟩ | ht
    · exact .inl ht
    · exact .inr (worked_phase ht hready)

/-! ### The quiet before READY -/

/-- What the law of the quiet asks before READY: every table at its power-on value, and no request or response held. -/
def State.Quiet (s : State) : Prop :=
  s.slots = State.reset.slots ∧ s.keyIndex = [] ∧ s.rights = State.reset.rights ∧ s.agents = State.reset.agents
    ∧ s.linkStalled = false ∧ s.lostAgents = FinSet.empty 8 ∧ s.groups = State.reset.groups ∧ s.sweep = none
    ∧ s.channels = State.reset.channels ∧ s.updateQueue = [] ∧ s.link = .idle ∧ s.pointer = .port 1
    ∧ s.engine = .free ∧ ∀ p, (s.port p).cond = .empty

theorem quietLaw_iff {s : State} : s.QuietLaw ↔ (s.phase ≠ .ready → s.Quiet) := Iff.rfl

namespace State.Quiet
variable {s : State} (h : s.Quiet)
include h

theorem cond (p : PortId) : (s.port p).cond = .empty := by
  obtain ⟨-, -, -, -, -, -, -, -, -, -, -, -, -, hcond⟩ := h
  exact hcond p

theorem engine : s.engine = .free := by
  obtain ⟨-, -, -, -, -, -, -, -, -, -, -, -, hengine, -⟩ := h
  exact hengine

theorem link : s.link = .idle := by
  obtain ⟨-, -, -, -, -, -, -, -, -, -, hlink, -⟩ := h
  exact hlink

theorem row (a : Agent) : s.row a = AgentRow.powerOn := by
  obtain ⟨-, -, -, hagents, -⟩ := h
  rw [State.row, hagents]
  exact Tab.get_replicate _ a

theorem group (g : GroupNo) : s.group g = Group.powerOn := by
  obtain ⟨-, -, -, -, -, -, hgroups, -⟩ := h
  rw [State.group, hgroups]
  exact Tab.get_replicate _ g

/-- The events of the ports and of start-up leave the quiet, when they leave every port EMPTY. -/
theorem setPorts {ports : Tab 2 Port} (hcond : ∀ p, (ports.get p).cond = .empty) (phase : Phase) (freeDraws : Nat) :
    State.Quiet { s with ports := ports, phase := phase, freeDraws := freeDraws } := by
  obtain ⟨hslots, hindex, hrights, hagents, hstalled, hlost, hgroups, hsweep, hchannels, hqueue, hlink, hpointer,
    hengine, -⟩ := h
  exact ⟨hslots, hindex, hrights, hagents, hstalled, hlost, hgroups, hsweep, hchannels, hqueue, hlink, hpointer,
    hengine, hcond⟩

end State.Quiet

/-- A transaction leaves an EMPTY port EMPTY before READY: a SUBMIT is then refused. -/
theorem portEvent_empty {q q' : Port} (h : Port.Event false q q') (hq : q.cond = .empty) : q'.cond = .empty := by
  obtain ⟨hrequest, hresponse⟩ : q.request = .empty ∧ q.response = none := by
    rcases portCond_cases q with ⟨-, h⟩ | ⟨hc, -⟩ | ⟨hc, -⟩ | ⟨hc, -⟩ | ⟨hc, -⟩
    case inl => exact h
    all_goals rw [hc] at hq; cases hq
  cases h with
  | noted | shifted | reported => exact hq
  | submitted => exact hq
  | collected => simp [Port.cond, hrequest]
  | cancelled out =>
    obtain ⟨last, hlast⟩ := cancelPort_of_not_submitted (q := q) (by rw [hq]; decide)
    rw [hlast]
    exact hq
  | cleared out =>
    rcases clearPort_cases q with ⟨⟨f, hf⟩, -⟩ | ⟨hf, -⟩ | ⟨⟨-, hf⟩, -⟩ | ⟨-, -, hc⟩
    · rw [hrequest] at hf; cases hf
    · rw [hrequest] at hf; cases hf
    · rw [hresponse] at hf; cases hf
    · rw [hc]; exact hq

theorem readyOut_of_not_ready {s : State} (h : s.phase ≠ .ready) : s.readyOut = false := beq_false_of_ne h

theorem cond_set {ports : Tab 2 Port} (h : ∀ p, (ports.get p).cond = .empty) (p : PortId) {q : Port}
    (hq : q.cond = .empty) (j : PortId) : ((ports.set p q).get j).cond = .empty := by
  rw [Tab.get_set]
  split
  · exact hq
  · exact h j

theorem State.Quiet.portSteps {s t : State} (h : s.Quiet) (hphase : s.phase ≠ .ready) (ht : s.PortSteps t) :
    t.Quiet := by
  induction ht with
  | refl => exact h
  | @tail u v hu hstep ih =>
    obtain ⟨p, q, n, hevent, rfl⟩ := hstep
    rw [readyOut_of_not_ready fun hready => hphase ((State.SameTables.portSteps hu).phase.symm.trans hready)] at hevent
    exact ih.setPorts (cond_set ih.cond p (portEvent_empty hevent (ih.cond p))) u.phase n

theorem setRow_row (s : State) (a : Agent) : s.setRow a (s.row a) = s := by
  have hagents : s.agents.set a (s.agents.get a) = s.agents := by
    apply Tab.ext_get
    intro b
    rw [Tab.get_set]
    split
    · next h => rw [h]
    · rfl
  unfold State.setRow State.row
  rw [hagents]

theorem setGroup_group (s : State) (g : GroupNo) : s.setGroup g (s.group g) = s := by
  have hgroups : s.groups.set g (s.groups.get g) = s.groups := by
    apply Tab.ext_get
    intro j
    rw [Tab.get_set]
    split
    · next h => rw [h]
    · rfl
  unfold State.setGroup State.group
  rw [hgroups]

/-- Before READY the part's own commands find no timer running and no frame in flight. -/
theorem State.Quiet.worked {s t : State} (h : s.Quiet) (hphase : s.phase ≠ .ready) (ht : s.Worked t) : t.Quiet := by
  cases ht with
  | same => exact h
  | keepaliveExpiry a =>
    have hrow : (s.row a).expire = s.row a := by rw [h.row]; rfl
    rw [hrow, setRow_row]
    exact h
  | periodExpiry g =>
    have hgroup : (s.group g).expire = s.group g := by rw [h.group]; rfl
    rw [hgroup, setGroup_group]
    exact h
  | ackExpiry =>
    have hlink : s.expireLink = s := by simp only [State.expireLink, h.link]
    rw [hlink]
    exact h
  | endFrame f n hlink => rw [h.link] at hlink; cases hlink
  | acknowledge f n m hlink => rw [h.link] at hlink; cases hlink
  | release low0 low1 _ =>
    refine h.setPorts (ports := (s.ports.set 0 ((s.port 0).atRelease low0)).set 1
      ((s.port 1).atRelease low1)) (fun p => ?_) .initialising s.freeDraws
    exact cond_set (cond_set h.cond 0 (q := (s.port 0).atRelease low0) (h.cond 0)) 1
      (q := (s.port 1).atRelease low1) (h.cond 1) p
  | ready levels _ => exact h
  | lapse _ hready | sweepStart _ hready | sweepEnd hready | sweepVisit _ _ _ hready | sweepIdle hready
  | tickWithin hready | tickApart hready | strobeRise _ hready | strobeFall _ hready | takeHead _ _ hready =>
    exact absurd hready hphase

theorem serveFrame_of_quiet {s : State} (h : s.Quiet) (hphase : s.phase ≠ .ready) (isKind : Byte → Bool)
    (act : List Byte → State → Answer) (p : PortId) (x : Extent) : serveFrame isKind act p x s = s := by
  rcases serveFrame_cases isKind act p x s with hs | ⟨f, hoffers, -⟩ | ⟨c, resp, hbusy, -⟩
  · exact hs
  · exact absurd hoffers.phase.1 hphase
  · rw [h.engine] at hbusy; cases hbusy

theorem exec_keeps_quietLaw {c : Instr} {s t : State} (h : s.QuietLaw) (hexec : exec c s = .next t) : t.QuietLaw := by
  by_cases hphase : s.phase = .ready
  · rcases exec_phase hexec hphase with rfl | hready
    · exact (laws_resetAssert s).quiet
    · exact fun hnot => absurd hready hnot
  have hquiet := quietLaw_iff.1 h hphase
  refine quietLaw_iff.2 fun _ => ?_
  cases commandSort c with
  | port hport =>
    obtain ⟨u, hu, hsteps⟩ := hport s
    rw [hexec] at hu
    cases hu
    exact hquiet.portSteps hphase hsteps
  | request k p x hc =>
    subst hc
    rw [exec_requestInstr] at hexec
    cases hexec
    rw [serve, serveFrame_of_quiet hquiet hphase]
    exact hquiet
  | unknown p x hc =>
    subst hc
    rw [exec_unknownKind] at hexec
    cases hexec
    rw [serveFrame_of_quiet hquiet hphase]
    exact hquiet
  | own hown =>
    rcases exec_own_worked hown hexec with ⟨-, rfl⟩ | ht
    · exact quietLaw_iff.1 (laws_resetAssert s).quiet fun hready => by cases hready
    · exact hquiet.worked hphase ht

/-! ### All the laws -/

theorem exec_keeps_laws {c : Instr} {s t : State} (h : s.Laws) (hexec : exec c s = .next t) : t.Laws where
  limits := slotsKept_limitsLaw.exec h.limits hexec
  queues := slotsKept_queueLaw.exec h.queues hexec
  store := exec_keeps_storeLaw h.store hexec
  members := exec_keeps_membersLaw h.members hexec
  sessions := exec_keeps_sessionLaw h.sessions hexec
  attention := exec_keeps_attentionLaw h.attention hexec
  bindings := exec_keeps_bindingLaw h.store h.bindings hexec
  link := exec_keeps_linkLaw h.link hexec
  ports := exec_keeps_portLaw h.ports hexec
  groups := exec_keeps_groupLaw h.groups hexec
  quiet := exec_keeps_quietLaw h.quiet hexec

/-- The laws do not speak of the commands waiting. -/
theorem laws_setPending {s : State} (h : s.Laws) (cs : List Instr) : State.Laws { s with pending := cs } :=
  ⟨h.limits, h.queues, h.store, h.members, h.sessions, h.attention, h.bindings, h.link, h.ports, h.groups, h.quiet⟩

/-- Settles O4: each law is kept by every command, from the laws that it rests on. -/
theorem lawsKeptByEveryStep : Obligations.LawsKeptByEveryStep :=
  fun _ _ h hstep => step_keeps (fun _ cs h => laws_setPending h cs) (fun _ _ _ => exec_keeps_laws) h hstep

end Sys2Proof.Machine
end

section
/-! PROOF. The arbiter, the two halves of a request, and the checks of the admission in their order (R35 to R44, R163 to
R165, R170). -/
namespace Sys2Proof.Machine

/-! ### The arbiter (R163) -/

/-- A search of a list in strictly ascending order finds the least element with the property. -/
theorem find?_eq_some_iff_least {α : Type} {l : List α} {rank : α → Nat} (hl : l.Pairwise fun x y => rank x < rank y)
    (P : α → Bool) (c : α) : l.find? P = some c ↔ c ∈ l ∧ P c = true ∧ ∀ d ∈ l, P d = true → rank c ≤ rank d := by
  induction l with
  | nil => simp
  | cons x l ih =>
    obtain ⟨hx, hl⟩ := List.pairwise_cons.1 hl
    by_cases hp : P x = true
    · rw [List.find?_cons_of_pos hp]
      constructor
      · rintro ⟨⟩
        refine ⟨by simp, hp, fun d hd _ => ?_⟩
        rcases List.mem_cons.1 hd with rfl | hd
        · exact le_rfl
        · exact (hx d hd).le
      · rintro ⟨hc, -, hleast⟩
        rcases List.mem_cons.1 hc with rfl | hc
        · rfl
        · exact absurd (hleast x (by simp) hp) (not_le.2 (hx c hc))
    · rw [List.find?_cons_of_neg hp, ih hl]
      constructor
      · rintro ⟨hc, hpc, hleast⟩
        refine ⟨List.mem_cons_of_mem x hc, hpc, fun d hd hpd => ?_⟩
        rcases List.mem_cons.1 hd with rfl | hd
        · exact absurd hpd hp
        · exact hleast d hd hpd
      · rintro ⟨hc, hpc, hleast⟩
        rcases List.mem_cons.1 hc with rfl | hc
        · exact absurd hpc hp
        · exact ⟨hc, hpc, fun d hd => hleast d (List.mem_cons_of_mem x hd)⟩

/-- The cycle lists the claimants by how far they stand after the pointer. -/
theorem cycle_ascending (c : Claimant) : c.cycle.Pairwise fun d e => c.after d < c.after e := by
  cases c with
  | internal => decide
  | port p => revert p; decide

theorem mem_cycle (c d : Claimant) : d ∈ c.cycle := by
  have hports : ∀ p : PortId, p = 0 ∨ p = 1 := by decide
  cases c with
  | internal =>
    cases d with
    | internal => decide
    | port p => rcases hports p with rfl | rfl <;> decide
  | port q =>
    cases d with
    | internal => revert q; decide
    | port p => rcases hports p with rfl | rfl <;> (revert q; decide)

theorem grant_eq_some_iff {s : State} {c : Claimant} : s.grant = some c ↔
    s.phase = .ready ∧ s.engine = .free ∧ s.hasWork c = true
      ∧ ∀ d, s.hasWork d = true → s.pointer.after c ≤ s.pointer.after d := by
  unfold State.grant
  split
  · next hfree =>
    rw [find?_eq_some_iff_least (cycle_ascending s.pointer)]
    simp [mem_cycle, hfree]
  · next hfree =>
    simp only [false_iff, reduceCtorEq]
    exact fun h => hfree ⟨h.1, h.2.1⟩

theorem hasWork_internal {s : State} : s.hasWork .internal = true ↔
    (∃ a, (s.row a).expired = true) ∨ s.sweep.isSome = true ∨ ∃ g, (s.group g).pending = true := by
  simp only [State.hasWork, State.internalWork, Tab.cells_any, Bool.or_eq_true, or_assoc]
  rfl

theorem hasWork_port {s : State} {p : PortId} :
    s.hasWork (.port p) = true ↔ ∃ f, (s.port p).request = .submitted f := by
  simp only [State.hasWork, Port.isSubmitted]
  cases (s.port p).request <;> simp

/-- Settles O11: the grant is the first claimant with work of a list that ascends by the place after the pointer. -/
theorem arbiterGrantsNextInCycle : Obligations.ArbiterGrantsNextInCycle :=
  fun _ => ⟨fun _ => grant_eq_some_iff, hasWork_internal, fun _ => hasWork_port⟩

/-! ### The two halves of a request (log 3) -/

section
variable {isKind : Byte → Bool} {act : List Byte → State → Answer} {p : PortId} {f : List Byte} {b : Byte} {s : State}

theorem serveFrame_take_of_offers (h : s.Offers p f b) (hkind : isKind b = true) (act : List Byte → State → Answer) :
    serveFrame isKind act p .take s = takeRequest act p f s := by
  simp [serveFrame, h.grantedFrame, h.kind, hkind]

theorem serveFrame_whole_of_offers (h : s.Offers p f b) (hkind : isKind b = true) (act : List Byte → State → Answer) :
    serveFrame isKind act p .whole s = wholeRequest act p f s := by
  simp [serveFrame, h.grantedFrame, h.kind, hkind]

theorem serveFrame_finish_of_busy {resp : List Byte} (h : s.engine = .busy p b resp) (hkind : isKind b = true)
    (act : List Byte → State → Answer) : serveFrame isKind act p .finish s = s.deliverTo p resp := by
  simp [serveFrame, finishRequest, h, hkind]

theorem port_takeRequest (hact : LeavesFront act) :
    (takeRequest act p f s).port p = { (s.port p) with request := .taken } := by
  have hports : (takeRequest act p f s).ports = (s.takeFrom p).ports := (hact f (s.takeFrom p)).ports
  rw [State.port, hports, ← State.port_takeFrom_self]
  rfl

theorem serveFrame_take_finish (h : s.Offers p f b) (hkind : isKind b = true) (act : List Byte → State → Answer) :
    serveFrame isKind act p .finish (takeRequest act p f s) = wholeRequest act p f s :=
  serveFrame_finish_of_busy rfl (by rw [h.kind]; exact hkind) act

end

/-- Settles O12: the take holds the response that the whole delivers. -/
theorem takeThenFinishIsWhole : Obligations.TakeThenFinishIsWhole := by
  intro p f s
  refine ⟨fun k h => ?_, fun b h hb => ?_⟩
  · simp only [exec_requestInstr, serve]
    have hkind : (k.code == k.code) = true := beq_self_eq_true _
    rw [serveFrame_take_of_offers (isKind := fun b => b == k.code) h hkind,
      serveFrame_whole_of_offers (isKind := fun b => b == k.code) h hkind]
    exact ⟨_, rfl, by rw [port_takeRequest (leavesFront_admission k p)], nofun,
      by rw [serveFrame_take_finish (isKind := fun b => b == k.code) h hkind]⟩
  · have hkind : (!codeAssigned b) = true := by simp [hb]
    simp only [exec_unknownKind]
    rw [serveFrame_take_of_offers (isKind := fun b => !codeAssigned b) h hkind,
      serveFrame_whole_of_offers (isKind := fun b => !codeAssigned b) h hkind]
    exact ⟨_, rfl, by rw [port_takeRequest leavesFront_unknownKind], nofun,
      by rw [serveFrame_take_finish (isKind := fun b => !codeAssigned b) h hkind]⟩

/-! ### A request orphaned between its halves (R165, R170) -/

theorem exec_resetPort_of_canTransact {s : State} {p : PortId} (h : s.CanTransact p) (bits : Nat) :
    exec (.resetPort p bits) s = .next (s.setPort p
      { (clearPort { (s.port p) with txn := .resetPort }) with txn := .idle, sdo := ones (bits / 8 + 1) }) := by
  have hsettle : s.settle p codeResetPort = .resetPort := rfl
  show Host.Outcome.next (transaction p codeResetPort (bits / 8) (resetEnd p (bits / 8)) s) = _
  rw [transaction_whole h, hsettle]
  simp only [resetEnd, State.endTransaction, setPort_setTxn]
  simp [State.setTxn]

theorem clearPort_of_taken {q : Port} (h : q.request = .taken) :
    clearPort q = { q with orphan := true, last := .portReset } := by
  rcases clearPort_cases q with ⟨⟨f, hf⟩, -⟩ | ⟨-, hc⟩ | ⟨⟨hf, -⟩, -⟩ | ⟨hf, -⟩
  case inr.inl => exact hc
  all_goals rw [h] at hf; cases hf

theorem setPort_setPort (s : State) (p : PortId) (q q' : Port) : (s.setPort p q).setPort p q' = s.setPort p q' := by
  have hports : (s.ports.set p q).set p q' = s.ports.set p q' := by
    apply Tab.ext_get
    intro i
    simp only [Tab.get_set]
    split <;> rfl
  simp only [State.setPort, hports]

/-- A taken request whose port is reset before the delivery. -/
theorem runCommands_reset_finish {isKind : Byte → Bool} {act : List Byte → State → Answer} {p : PortId} {f : List Byte}
    {b : Byte} {s : State} (hact : LeavesFront act) (hoffers : s.Offers p f b) (hkind : isKind b = true)
    (hidle : s.CanTransact p) (hlaw : s.PortLaw) (bits : Nat) {finish : Instr}
    (hfinish : ∀ u, exec finish u = .next (serveFrame isKind act p .finish u)) :
    runCommands [.resetPort p bits, finish] (takeRequest act p f s) = .next
      { (takeRequest act p f s).setPort p
          { request := .empty, response := none, orphan := false, last := .portReset, txn := .idle
            sdo := List.replicate (bits / 8 + 1) 0xFF } with engine := .free } := by
  have hport := port_takeRequest (p := p) (f := f) (s := s) hact
  have hresponse : (s.port p).response = none := (hlaw p).1 (by rw [hoffers.submitted]; nofun)
  have hcan : (takeRequest act p f s).CanTransact p := by
    have hphase : (takeRequest act p f s).phase = s.phase := (hact f (s.takeFrom p)).phase
    exact ⟨by rw [hphase]; exact hidle.1, by rw [hport]; exact hidle.2⟩
  have hcode : isKind (frameKind f) = true := by rw [hoffers.kind]; exact hkind
  have hcleared : clearPort { (takeRequest act p f s).port p with txn := .resetPort } =
      { (s.port p) with request := .taken, orphan := true, last := .portReset, txn := .resetPort } := by
    rw [hport, clearPort_of_taken rfl]
  simp only [runCommands, exec_resetPort_of_canTransact hcan, hcleared, hfinish]
  rw [serveFrame_finish_of_busy rfl hcode, State.deliverTo, State.port_setPort_self, setPort_setPort]
  simp only [hresponse, if_true]
  rfl

/-- Settles O13: the RESET_PORT finds the port TAKEN and sets the mark, and the delivery then discards. -/
theorem orphanedResponseIsDiscarded : Obligations.OrphanedResponseIsDiscarded := by
  intro p f bits s t hidle hlaw
  refine ⟨fun k hoffers htake => ?_, fun b hoffers hb htake => ?_⟩
  · rw [exec_requestInstr, serve,
      serveFrame_take_of_offers (isKind := fun b => b == k.code) hoffers (beq_self_eq_true k.code)] at htake
    cases htake
    exact runCommands_reset_finish (isKind := fun b => b == k.code) (leavesFront_admission k p) hoffers
      (beq_self_eq_true k.code) hidle hlaw bits fun u => exec_requestInstr k p .finish u
  · have hkind : (!codeAssigned b) = true := by simp [codeAssigned_eq_false_iff.2 hb]
    rw [exec_unknownKind, serveFrame_take_of_offers (isKind := fun b => !codeAssigned b) hoffers hkind] at htake
    cases htake
    exact runCommands_reset_finish (isKind := fun b => !codeAssigned b) leavesFront_unknownKind hoffers hkind hidle hlaw
      bits fun u => exec_unknownKind p .finish u

/-! ### Checks 2 and 3 (R35, R38) -/

section
variable {k : ReqKind} {p : PortId} {f : List Byte} {s : State} {a : Agent}

/-- The whole of an offered request whose admission refuses it without a body. -/
theorem exec_of_refusal (h : s.Offers p f k.code) {u : State} {o : ReqOutcome}
    (hadm : admission k (carryOf k) p f (s.takeFrom p) = refuse u o) :
    exec (requestInstr k p .whole) s = .next (u.answered p f o []) := by
  rw [exec_whole_of_offers h, hadm]
  rfl

theorem admission_of_no_agent (h : 8 ≤ (frameAgent f).toNat) (carry : Request → State → Answer) (s : State) :
    admission k carry p f s = refuse s .badField := by
  simp only [admission, finOf_eq_none.2 h]

theorem admission_of_sessionRefusal (hagent : (frameAgent f).toNat = a.val) (hattach : k ≠ .attach) {o : ReqOutcome}
    (h : sessionRefusal (s.row a) (frameEpoch f) p = some o) (carry : Request → State → Answer) :
    admission k carry p f s = refuse s o := by
  simp only [admission, finOf_eq_some.2 hagent, if_neg hattach, h]

theorem admission_of_supervisorOnly (hagent : (frameAgent f).toNat = a.val) (hattach : k ≠ .attach)
    (h : sessionRefusal (s.row a) (frameEpoch f) p = none) (hk : k.supervisorOnly = true) (ha : a ≠ 0)
    (carry : Request → State → Answer) : admission k carry p f s = refuse (s.renew a) .noRight := by
  have hboth : (k.supervisorOnly && a != 0) = true := by simp [hk, ha]
  simp only [admission, finOf_eq_some.2 hagent, if_neg hattach, h, hboth, if_true]

/-- Settles O15: check 3 comes after the renewal and before the kind's own checks. -/
theorem supervisorOnlyKindsRefused : Obligations.SupervisorOnlyKindsRefused := by
  intro k p f a s hk hoffers hagent ha hstate hepoch hport
  have hkinds : k.supervisorOnly = true ∧ k ≠ .attach := by
    cases k <;> first | exact ⟨rfl, nofun⟩ | simp at hk
  have hsession : sessionRefusal ((s.takeFrom p).row a) (frameEpoch f) p = none := by
    simp [sessionRefusal, State.row_takeFrom, hstate, hepoch, hport]
  exact exec_of_refusal hoffers (admission_of_supervisorOnly hagent hkinds.2 hsession hkinds.1 ha _)

/-- Settles O16: the tests of `sessionRefusal` in their order, on the state as taken. -/
theorem sessionChecksInOrder : Obligations.SessionChecksInOrder := by
  intro k p f s hoffers
  refine ⟨fun h => exec_of_refusal hoffers (admission_of_no_agent h _ _), fun a hagent hattach => ?_⟩
  have hrefused : ∀ o, sessionRefusal (s.row a) (frameEpoch f) p = some o →
      exec (requestInstr k p .whole) s = .next ((s.takeFrom p).answered p f o []) := fun o ho =>
    exec_of_refusal hoffers (admission_of_sessionRefusal hagent hattach (by rw [State.row_takeFrom]; exact ho) _)
  refine ⟨fun hstate => hrefused _ ?_, fun hstate => hrefused _ ?_, fun hstate hepoch => hrefused _ ?_,
    fun hstate hepoch hport => hrefused _ ?_⟩
  · simp only [sessionRefusal, hstate]
  · simp only [sessionRefusal, hstate]
  · simp only [sessionRefusal, hstate, if_pos hepoch]
  · simp only [sessionRefusal, hstate, if_neg (not_not.2 hepoch), if_pos hport]

end

/-! ### What a refused request writes (R36) -/

/-- Settles O17: an admission refuses on the state as taken or as renewed, or passes the request on, and a kind that
refuses answers on the state it was given. -/
theorem refusedRequestWritesNothing : Obligations.RefusedRequestWritesNothing := by
  intro k p f s hoffers
  have hfront := admission_sameFront k p f (s.takeFrom p)
  refine ⟨(admission k (carryOf k) p f (s.takeFrom p)).st, _, _, exec_take_of_offers hoffers,
    exec_whole_of_offers hoffers, hfront.ports, hfront.engine.trans hoffers.phase.2, fun hdone hqueued => ?_⟩
  rcases admission_cases hoffers (carryOf k) with ⟨o, hadm⟩ | ⟨a, hagent, -, o, hadm⟩ | ⟨a, -, hadm⟩ |
    ⟨a, hadmits, hadm⟩
  · exact .inl (by rw [hadm]; rfl)
  · exact .inr ⟨a, hagent, by rw [hadm]; rfl⟩
  · rw [hadm] at hdone hqueued ⊢
    exact .inl (carryOf_refusal k _ _ hdone hqueued)
  · rw [hadm] at hdone hqueued ⊢
    exact .inr ⟨a, hadmits.agent, carryOf_refusal k _ _ hdone hqueued⟩

/-! ### Checks 5 to 8 (R8, R41 to R44) -/

/-- Check 6, for a kind that needs a class right. -/
def needKindRight (s : State) (k : ReqKind) (a : Agent) (r : Record) (A : Answer) : Answer :=
  match k.rightNeeded with
  | none => A
  | some n => needRight s a r.cls n A

/-- The test of check 7 of each kind. -/
def Record.qualifies (r : Record) (k : ReqKind) (a : Agent) : Bool :=
  match k with
  | .retire | .tune => a == 0 || r.heldBy a
  | .release => r.heldBy a
  | .stage | .unstage => r.stageableBy a
  | _ => true

theorem qualifies_iff {r : Record} {k : ReqKind} {a : Agent} : r.qualifies k a = true ↔ r.OwnershipPasses k a := by
  cases k with
  | retire | tune => simp [Record.qualifies, Record.OwnershipPasses, Record.heldBy, or_comm]
  | release => simp [Record.qualifies, Record.OwnershipPasses, Record.heldBy]
  | stage | unstage =>
    simp only [Record.qualifies, Record.OwnershipPasses, Record.stageableBy]
    cases r.state <;> simp
  | _ => exact iff_of_true rfl trivial

/-- Every kind that names a record by handle resolves it, then tests the right, the ownership and the guard. -/
theorem carryOf_handle {k : ReqKind} {q : Request} {h : Handle} (hh : k.handleIn q.options q.body = some h) (s : State) :
    ∃ rest : Record → Answer, carryOf k q s = onHandle s h fun r =>
      needKindRight s k q.agent r (needOwner s (r.qualifies k q.agent)
        (needGuard s h r (k.guardIn q.options q.body) (rest r))) := by
  cases k
  case read | cancelClaim | revoke | restore | watch | unwatch | retire | release | unstage | claim | stage | tune | bind =>
    obtain ⟨x, hparse, rfl⟩ := Option.map_eq_some_iff.1 hh
    simp only [carryOf, carryRead, carryCancelClaim, carryRevoke, carryRestore, carryWatch, carryUnwatch, carryRetire,
      carryRelease, carryUnstage, carryClaim, carryStage, carryTune, carryBind, ReqKind.guardIn, hparse,
      Option.bind_some]
    exact ⟨_, rfl⟩
  all_goals cases hh

theorem needKindRight_of_passes {s : State} {k : ReqKind} {a : Agent} {r : Record} (h : s.RightPasses k a r)
    (A : Answer) : needKindRight s k a r A = A := by
  unfold needKindRight
  split
  · rfl
  · next n hn => exact needRight_of_holds (h n hn) A

theorem needKindRight_of_not_passes {s : State} {k : ReqKind} {a : Agent} {r : Record} (h : ¬ s.RightPasses k a r)
    (A : Answer) : needKindRight s k a r A = refuse s .noRight := by
  unfold needKindRight
  split
  · next hn => exact absurd (fun n hsome => by rw [hn] at hsome; cases hsome) h
  · next n hn =>
    refine if_neg fun hholds => h fun m hm => ?_
    rw [hn] at hm
    cases hm
    exact hholds

theorem needOwner_of_not_passes {s : State} {k : ReqKind} {a : Agent} {r : Record} (h : ¬ r.OwnershipPasses k a)
    (A : Answer) : needOwner s (r.qualifies k a) A = refuse s .notOwner :=
  if_neg fun hq => h (qualifies_iff.1 hq)

theorem needGuard_of_differs {s : State} {h : Handle} {r : Record} {g : BitVec 16} (hne : g ≠ r.revision) (A : Answer) :
    needGuard s h r (some g) A = { st := s, outcome := .revisionMismatch, body := encHandle h ++ bytes16 r.revision } :=
  if_neg hne

/-- Settles O18: the four checks are the ones of `carryOf_handle`, on the state as renewed. -/
theorem handleChecksInOrder : Obligations.HandleChecksInOrder := by
  intro k p f a s h hadmits hh
  obtain ⟨rest, hcarry⟩ := carryOf_handle (q := requestOf f a p (s.ticksLeft a)) hh (s.begun p a)
  refine ⟨fun hstale => exec_of_refused hadmits ?_, fun r hnames => ?_⟩
  · rw [hcarry]
    simp only [onHandle, resolve_none (s := s.begun p a) hstale]
  · have hcarry : carryOf k (requestOf f a p (s.ticksLeft a)) (s.begun p a) = needKindRight (s.begun p a) k a r
        (needOwner (s.begun p a) (r.qualifies k a)
          (needGuard (s.begun p a) h r (k.guardIn (frameOptions f) (frameBody f)) (rest r))) :=
      hcarry.trans (onHandle_of_names (hnames.begun p a) _)
    refine ⟨fun hnot => exec_of_refused hadmits ?_, fun hpass hnot => exec_of_refused hadmits ?_,
      fun hpass howner g hg hne => ?_⟩
    · rw [hcarry]
      exact needKindRight_of_not_passes (s := s.begun p a) hnot _
    · rw [hcarry, needKindRight_of_passes (s := s.begun p a) hpass]
      exact needOwner_of_not_passes hnot _
    · have hguard : carryOf k (requestOf f a p (s.ticksLeft a)) (s.begun p a) =
          { st := s.begun p a, outcome := .revisionMismatch, body := encHandle h ++ bytes16 r.revision } := by
        rw [hcarry, needKindRight_of_passes (s := s.begun p a) hpass, qualifies_iff.2 howner, needOwner_true, hg]
        exact needGuard_of_differs hne _
      rw [exec_of_admits hadmits, hguard]
      rfl

end Sys2Proof.Machine
end

section
/-! PROOF. The transactions of a port (chapter 9): the first byte settles the kind, the deassertion acts on it. -/
namespace Sys2Proof.Machine

/-! ### A transaction whose kind is settled (R159, log 4) -/

/-- The kind `t` of port `p`'s transaction is settled: read at the end of its first byte, or about to be read there. -/
structure State.Settled (s : State) (p : PortId) (first : Byte) (t : Txn) : Prop where
  answering : s.phase ≠ .inReset
  begun : t ≠ .idle
  read : (s.port p).txn = t ∨ ((s.port p).txn = .idle ∧ s.settle p first = t)

theorem port_setTxn_self (s : State) (p : PortId) (t : Txn) : (s.setTxn p t).port p = { (s.port p) with txn := t } :=
  State.port_setPort_self s p _

theorem setTxn_of_txn {s : State} {p : PortId} {t : Txn} (h : (s.port p).txn = t) : s.setTxn p t = s := by
  have hports : s.ports.set p { (s.port p) with txn := t } = s.ports := by
    apply Tab.ext_get
    intro i
    rw [Tab.get_set]
    split
    · next hi => subst hi; subst h; rfl
    · rfl
  unfold State.setTxn State.setPort
  rw [hports]

theorem setTxn_setTxn (s : State) (p : PortId) (t u : Txn) : (s.setTxn p t).setTxn p u = s.setTxn p u := by
  unfold State.setTxn
  rw [State.port_setPort_self, setPort_setPort]

theorem settle_ne_idle (s : State) (p : PortId) (first : Byte) : s.settle p first ≠ .idle := by
  unfold State.settle
  split_ifs <;> nofun

theorem transaction_of_settled {s : State} {p : PortId} {first : Byte} {t : Txn} (h : s.Settled p first t) (n : Nat)
    (act : Txn → State → State) : transaction p first n act s = act t (s.setTxn p t) := by
  obtain ⟨hphase, hidle, hread | ⟨htxn, hsettle⟩⟩ := h
  · have hsame : firstByte p first s = s := by
      unfold firstByte
      rw [if_neg hphase, if_neg (by rw [hread]; exact hidle)]
    rw [transaction, if_neg hphase, hsame, hread, setTxn_of_txn hread]
  · rw [transaction_whole ⟨hphase, htxn⟩, hsettle]

theorem State.CanTransact.settled {s : State} {p : PortId} (h : s.CanTransact p) (first : Byte) :
    s.Settled p first (s.settle p first) :=
  ⟨h.1, settle_ne_idle s p first, .inr ⟨h.2, rfl⟩⟩

theorem State.CanEnd.settled {s : State} {p : PortId} {t : Txn} {first : Byte} (h : s.CanEnd p t)
    (hsettle : s.settle p first = t) (hidle : t ≠ .idle) : s.Settled p first t := by
  obtain ⟨hphase, htxn | htxn⟩ := h
  · exact ⟨hphase, hidle, .inr ⟨htxn, hsettle⟩⟩
  · exact ⟨hphase, hidle, .inl htxn⟩

/-! ### What a first byte settles -/

section
variable (s : State) (p : PortId)

theorem settle_submit : s.settle p codeSubmit = .submit := rfl
theorem settle_status : s.settle p codeStatus = .status (s.statusByte p) (s.port p).last.code := rfl
theorem settle_cancel : s.settle p codeCancel = .cancel := rfl
theorem settle_resetPort : s.settle p codeResetPort = .resetPort := rfl

/-- The response that a COLLECT shifts out: the waiting one, if the port holds one and no request. -/
def Port.waiting (q : Port) : Option (List Byte) := if q.request = .empty then q.response else none

theorem settle_collect : s.settle p codeCollect = .collect (s.port p).waiting := by
  have hwaiting : (if (s.port p).cond = .responseWaiting then (s.port p).response else none) = (s.port p).waiting := by
    unfold Port.waiting
    rcases portCond_cases (s.port p) with ⟨hc, hreq, hresp⟩ | ⟨hc, hreq, -⟩ | ⟨hc, f, hreq⟩ | ⟨hc, hreq, -⟩ | ⟨hc, hreq, -⟩
    · simp [hc, hreq, hresp]
    · simp [hc, hreq]
    all_goals simp [hc, hreq]
  rw [← hwaiting]
  rfl

theorem settle_unknown {first : Byte} (h : first ∉ transactionCodes) : s.settle p first = .unknown := by
  simp only [transactionCodes, List.mem_cons, List.not_mem_nil, or_false, not_or] at h
  obtain ⟨hsubmit, hcollect, hstatus, hcancel, hreset⟩ := h
  simp only [State.settle, if_neg hsubmit, if_neg hcollect, if_neg hstatus, if_neg hcancel, if_neg hreset]

end

/-! ### The deassertion of a settled transaction -/

section
variable {frame : List Byte} {q : Port}

theorem submitPort_of_not_ready {extra : Fin 8} : submitPort q false frame extra = { q with last := .notReady } := rfl

theorem submitPort_of_fault {extra : Fin 8} {c : LastCode} (h : frameFault frame extra = some c) :
    submitPort q true frame extra = { q with last := c } := by
  simp [submitPort, h]

theorem submitPort_of_empty {extra : Fin 8} (h : frameFault frame extra = none) (hq : q.cond = .empty) :
    submitPort q true frame extra = { q with request := .submitted frame, last := .accepted } := by
  simp [submitPort, h, hq]

theorem submitPort_of_occupied {extra : Fin 8} (h : frameFault frame extra = none) (hq : q.cond ≠ .empty) :
    submitPort q true frame extra = { q with last := .occupied } := by
  simp [submitPort, h, hq]

/-- SUBMIT, CANCEL and RESET_PORT neither read nor write the transaction in progress. -/
theorem submitPort_rewritten (q : Port) (t : Txn) (ready : Bool) (frame : List Byte) (extra : Fin 8) :
    submitPort { q with txn := t } ready frame extra = { (submitPort q ready frame extra) with txn := t } := by
  have hcond : Port.cond { q with txn := t } = q.cond := rfl
  cases ready with
  | false => rfl
  | true =>
    cases hfault : frameFault frame extra with
    | some c => rw [submitPort_of_fault hfault, submitPort_of_fault hfault]
    | none =>
      by_cases hq : q.cond = .empty
      · rw [submitPort_of_empty hfault hq, submitPort_of_empty hfault (hcond.trans hq)]
      · rw [submitPort_of_occupied hfault hq, submitPort_of_occupied hfault (by rw [hcond]; exact hq)]

end

theorem shiftedOut_eq (l : List Byte) (n : Nat) :
    shiftedOut l n = 0xFF :: (l ++ List.replicate (n - l.length) 0xFF).take n := by
  simp [shiftedOut, ones, List.take_append]

section
variable {s : State} {p : PortId} {bits : Nat}

/-- The port once the end of a transaction has been written over its settled kind. -/
theorem endTransaction_setTxn (s : State) (p : PortId) (t : Txn) (q : Port) (out : List Byte) :
    (s.setTxn p t).endTransaction p q out = s.setPort p { q with txn := .idle, sdo := out } :=
  setPort_setTxn s p t _

theorem exec_submit_of_settled {frame : List Byte} {extra : Fin 8} (h : s.Settled p codeSubmit .submit) :
    exec (.submit p frame extra) s = .next (s.setPort p { (submitPort (s.port p) s.readyOut frame extra) with
      txn := .idle, sdo := ones (frame.length + 1) }) := by
  show Host.Outcome.next (transaction p codeSubmit frame.length (submitEnd p frame extra) s) = _
  rw [transaction_of_settled h, submitEnd, endTransaction_setTxn, port_setTxn_self, submitPort_rewritten]
  rfl

theorem exec_collect_of_some {resp : List Byte} (h : s.Settled p codeCollect (.collect (some resp))) :
    exec (.collect p bits) s = .next (s.setPort p (if resp.length ≤ bits / 8
      then { (s.port p) with response := none, last := .collected, txn := .idle, sdo := shiftedOut resp (bits / 8) }
      else { (s.port p) with last := .collectAborted, txn := .idle, sdo := shiftedOut resp (bits / 8) })) := by
  show Host.Outcome.next (transaction p codeCollect (bits / 8) (collectEnd p (bits / 8)) s) = _
  rw [transaction_of_settled h, collectEnd]
  split <;> rw [endTransaction_setTxn, port_setTxn_self]

theorem exec_collect_of_none (h : s.Settled p codeCollect (.collect none)) :
    exec (.collect p bits) s = .next (s.setPort p { (s.port p) with
      last := .noResponse, txn := .idle, sdo := shiftedOut [0x00] (bits / 8) }) := by
  show Host.Outcome.next (transaction p codeCollect (bits / 8) (collectEnd p (bits / 8)) s) = _
  rw [transaction_of_settled h, collectEnd, endTransaction_setTxn, port_setTxn_self]

theorem exec_status_of_settled {a b : Byte} (h : s.Settled p codeStatus (.status a b)) :
    exec (.status p bits) s = .next (s.setPort p { (s.port p) with
      txn := .idle, sdo := shiftedOut [a, b] (bits / 8) }) := by
  show Host.Outcome.next (transaction p codeStatus (bits / 8) (statusEnd p (bits / 8)) s) = _
  rw [transaction_of_settled h, statusEnd, endTransaction_setTxn, port_setTxn_self]

theorem cancelPort_rewritten (q : Port) (t u : Txn) (out : List Byte) :
    { (cancelPort { q with txn := t }) with txn := u, sdo := out } = cancelPort { q with txn := u, sdo := out } := by
  have hold : Port.cond { q with txn := t } = q.cond := rfl
  have hnew : Port.cond { q with txn := u, sdo := out } = q.cond := rfl
  unfold cancelPort
  rw [hold, hnew]
  cases q.cond <;> rfl

theorem clearPort_rewritten (q : Port) (t u : Txn) (out : List Byte) :
    { (clearPort { q with txn := t }) with txn := u, sdo := out } = clearPort { q with txn := u, sdo := out } := by
  have hold : Port.cond { q with txn := t } = q.cond := rfl
  have hnew : Port.cond { q with txn := u, sdo := out } = q.cond := rfl
  unfold clearPort
  rw [hold, hnew]
  cases q.cond <;> rfl

theorem exec_cancel_of_settled (h : s.Settled p codeCancel .cancel) :
    exec (.cancel p bits) s = .next (s.setPort p
      (cancelPort { (s.port p) with txn := .idle, sdo := ones (bits / 8 + 1) })) := by
  show Host.Outcome.next (transaction p codeCancel (bits / 8) (cancelEnd p (bits / 8)) s) = _
  rw [transaction_of_settled h, cancelEnd, endTransaction_setTxn, port_setTxn_self, cancelPort_rewritten]

theorem exec_resetPort_of_settled (h : s.Settled p codeResetPort .resetPort) :
    exec (.resetPort p bits) s = .next (s.setPort p
      (clearPort { (s.port p) with txn := .idle, sdo := ones (bits / 8 + 1) })) := by
  show Host.Outcome.next (transaction p codeResetPort (bits / 8) (resetEnd p (bits / 8)) s) = _
  rw [transaction_of_settled h, resetEnd, endTransaction_setTxn, port_setTxn_self, clearPort_rewritten]

theorem exec_unknownTransaction {first : Byte} (h : first ∉ transactionCodes) :
    exec (.unknownTransaction p first bits) s =
      .next (transaction p first (bits / 8) (unknownEnd p (bits / 8)) s) := by
  show Host.Outcome.next (if transactionCodes.contains first then s
    else transaction p first (bits / 8) (unknownEnd p (bits / 8)) s) = _
  rw [if_neg (by simpa using h)]

theorem exec_unknownTransaction_of_settled {first : Byte} (hfirst : first ∉ transactionCodes)
    (h : s.Settled p first .unknown) :
    exec (.unknownTransaction p first bits) s = .next (s.setPort p { (s.port p) with
      last := .unknownTransaction, txn := .idle, sdo := ones (bits / 8 + 1) }) := by
  rw [exec_unknownTransaction hfirst, transaction_of_settled h, unknownEnd, endTransaction_setTxn, port_setTxn_self]

end

/-! ### SUBMIT (R161, R162) -/

section
variable {frame : List Byte} {q : Port}

theorem frameFault_of_extra {extra : Fin 8} (h : extra ≠ 0) : frameFault frame extra = some .frameIncompleteByte := if_pos h

theorem frameFault_of_length (h : frame.length < 7 ∨ (frame.getD 0 0).toNat ≠ frame.length) :
    frameFault frame 0 = some .frameLength := by
  cases frame with
  | nil => rfl
  | cons len rest =>
    have hbad : len.toNat ≠ (len :: rest).length ∨ len.toNat < Config.minFrame := by
      rcases h with h | h
      · by_cases heq : len.toNat = (len :: rest).length
        · exact .inr (by rw [heq]; exact h)
        · exact .inl heq
      · exact .inl h
    simp only [frameFault, ne_eq, not_true_eq_false, if_false, if_pos hbad]

theorem frameFault_of_good_length (hlen : 7 ≤ frame.length) (hfirst : (frame.getD 0 0).toNat = frame.length) :
    frameFault frame 0 = if crc8 frame.dropLast ≠ frame.getLast?.getD 0 then some .frameCrc else none := by
  cases frame with
  | nil => simp at hlen
  | cons len rest =>
    have hgood : ¬ (len.toNat ≠ (len :: rest).length ∨ len.toNat < Config.minFrame) := by
      have hfirst : len.toNat = (len :: rest).length := hfirst
      rw [hfirst]
      exact not_or.2 ⟨not_not.2 rfl, not_lt.2 hlen⟩
    simp only [frameFault, ne_eq, not_true_eq_false, if_false, if_neg hgood]

/-- A SUBMIT writes the request and LAST alone, and the request only when it is accepted. -/
theorem submitPort_frame (q : Port) (ready : Bool) (frame : List Byte) (extra : Fin 8) :
    ∃ request last, submitPort q ready frame extra = { q with request := request, last := last }
      ∧ (last ≠ .accepted → request = q.request) := by
  unfold submitPort
  split
  · exact ⟨q.request, .notReady, rfl, fun _ => rfl⟩
  · split
    · next c _ => exact ⟨q.request, c, rfl, fun _ => rfl⟩
    · split
      · exact ⟨_, _, rfl, fun h => absurd rfl h⟩
      · exact ⟨q.request, .occupied, rfl, fun _ => rfl⟩

end

theorem readyOut_of_ready {s : State} (h : s.phase = .ready) : s.readyOut = true := by simp [State.readyOut, h]

/-- Settles O21: the tests of `submitPort` in their order, on the port as it stands at the deassertion. -/
theorem submitTestedInOrder : Obligations.SubmitTestedInOrder := by
  intro p frame extra s
  refine ⟨fun h => unanswered_of_inReset h rfl, fun hcan => ?_⟩
  obtain ⟨request, last, hport, hkept⟩ := submitPort_frame (s.port p) s.readyOut frame extra
  have hlast : ∀ {q : Port}, submitPort (s.port p) s.readyOut frame extra = q → last = q.last ∧ request = q.request := by
    rintro q rfl
    rw [hport]
    exact ⟨rfl, rfl⟩
  refine ⟨request, last, ?_, hkept, fun hphase => ?_, fun hphase hextra => ?_, fun hphase hextra => ?_⟩
  · rw [exec_submit_of_settled (hcan.settled (settle_submit s p) nofun), hport]
    rfl
  · rw [readyOut_of_not_ready hphase] at hlast
    exact (hlast submitPort_of_not_ready).1
  · rw [readyOut_of_ready hphase] at hlast
    exact (hlast (submitPort_of_fault (frameFault_of_extra hextra))).1
  · subst hextra
    rw [readyOut_of_ready hphase] at hlast
    refine ⟨fun hlen => (hlast (submitPort_of_fault (frameFault_of_length hlen))).1, fun hlen hfirst => ?_⟩
    have hfault := frameFault_of_good_length hlen hfirst
    refine ⟨fun hcrc => ?_, fun hcrc => ⟨fun hocc => ?_, fun hempty => ?_⟩⟩
    · rw [if_pos hcrc] at hfault
      exact (hlast (submitPort_of_fault hfault)).1
    · rw [if_neg (not_not.2 hcrc)] at hfault
      exact (hlast (submitPort_of_occupied hfault hocc)).1
    · rw [if_neg (not_not.2 hcrc)] at hfault
      exact hlast (submitPort_of_empty hfault hempty)

/-! ### COLLECT (R166, R167) -/

theorem shiftedOut_of_whole {resp : List Byte} {n : Nat} (h : resp.length ≤ n) :
    shiftedOut resp n = 0xFF :: resp ++ List.replicate (n - resp.length) 0xFF := by
  simp [shiftedOut, ones, List.take_of_length_le h]

theorem shiftedOut_of_cut {resp : List Byte} {n : Nat} (h : n < resp.length) :
    shiftedOut resp n = 0xFF :: resp.take n := by
  simp [shiftedOut, ones, Nat.sub_eq_zero_of_le h.le]

theorem waiting_of_held {q : Port} (h : q.request = .empty) : q.waiting = q.response := if_pos h

theorem waiting_of_nothing {q : Port} (h : q.request ≠ .empty ∨ q.response = none) : q.waiting = none := by
  unfold Port.waiting
  split
  · next hempty => exact h.resolve_left (not_not.2 hempty)
  · rfl

/-- Settles O22: what is shifted out was settled at the end of the first byte. -/
theorem collectGivesTheResponse : Obligations.CollectGivesTheResponse := by
  intro p bits s
  refine ⟨fun h => unanswered_of_inReset h rfl, fun hcan => ?_⟩
  have hsettled := hcan.settled codeCollect
  rw [settle_collect] at hsettled
  refine ⟨fun resp hempty hresp => ?_, fun hnothing => ?_⟩
  · rw [waiting_of_held hempty, hresp] at hsettled
    rw [exec_collect_of_some hsettled]
    refine ⟨fun hlen => ?_, fun hlen => ?_⟩
    · rw [if_pos hlen, shiftedOut_of_whole hlen]
    · rw [if_neg (not_le.2 hlen), shiftedOut_of_cut hlen]
  · rw [waiting_of_nothing hnothing] at hsettled
    rw [exec_collect_of_none hsettled, shiftedOut_eq]
    rfl

/-! ### STATUS (R137, R168, R177) -/

theorem getLsbD_bitIf : ∀ (b : Bool) (n i : Fin 8), (bitIf b n.val).getLsbD i.val = (b && decide (i = n)) := by decide

theorem getLsbD_statusByte (s : State) (p : PortId) :
    let c := (s.port p).cond
    (s.statusByte p).getLsbD 7 = s.readyOut ∧ (s.statusByte p).getLsbD 6 = (c == .submitted)
      ∧ (s.statusByte p).getLsbD 5 = (c == .taken || c == .orphaned) ∧ (s.statusByte p).getLsbD 4 = (c == .responseWaiting)
      ∧ (s.statusByte p).getLsbD 3 = s.attn p ∧ (s.statusByte p).getLsbD 2 = (c == .orphaned)
      ∧ (s.statusByte p).getLsbD 1 = false ∧ (s.statusByte p).getLsbD 0 = false := by
  have hbit : ∀ (b0 b1 b2 b3 b4 b5 : Bool) (i : Fin 8),
      (bitIf b0 7 ||| bitIf b1 6 ||| bitIf b2 5 ||| bitIf b3 4 ||| bitIf b4 3 ||| bitIf b5 2).getLsbD i.val =
        (b0 && decide (i = 7) || b1 && decide (i = 6) || b2 && decide (i = 5) || b3 && decide (i = 4)
          || b4 && decide (i = 3) || b5 && decide (i = 2)) := by
    intro b0 b1 b2 b3 b4 b5 i
    simp only [BitVec.getLsbD_or]
    rw [← getLsbD_bitIf b0 7, ← getLsbD_bitIf b1 6, ← getLsbD_bitIf b2 5, ← getLsbD_bitIf b3 4, ← getLsbD_bitIf b4 3,
      ← getLsbD_bitIf b5 2]
    rfl
  intro c
  have hstatus := hbit s.readyOut (c == .submitted) (c == .taken || c == .orphaned) (c == .responseWaiting) (s.attn p)
    (c == .orphaned)
  refine ⟨(hstatus 7).trans ?_, (hstatus 6).trans ?_, (hstatus 5).trans ?_, (hstatus 4).trans ?_, (hstatus 3).trans ?_,
    (hstatus 2).trans ?_, (hstatus 1).trans ?_, (hstatus 0).trans ?_⟩
  all_goals simp

theorem attn_iff {s : State} {p : PortId} : s.attn p = true ↔ (s.port p).response.isSome = true ∨ ∃ a : Agent,
    (s.row a).state = .attached ∧ (s.row a).port = some p
      ∧ ((s.row a).attention ≠ [] ∨ (s.row a).overflow = true
          ∨ (a = 0 ∧ (s.linkStalled = true ∨ ∃ n, s.lostAgents.mem n = true))) := by
  have hlost : s.lostAgents.isEmpty = false ↔ ∃ n, s.lostAgents.mem n = true := by
    unfold FinSet.isEmpty
    rw [Bool.not_eq_false', Tab.cells_any]
    rfl
  simp [State.attn, State.hasAttention, allAgents, hlost, and_assoc, or_assoc]

/-- Settles O23: the status byte is settled at the end of the first byte, bit by bit. -/
theorem statusReportsThePort : Obligations.StatusReportsThePort := by
  refine ⟨rfl, fun p bits s h => unanswered_of_inReset h rfl, fun p bits s hcan hlaw => ?_⟩
  obtain ⟨hready, hsubmitted, htaken, hwaiting, hattn, horphan, hone, hzero⟩ := getLsbD_statusByte s p
  obtain ⟨hresponse, hmark, -⟩ := hlaw p
  refine ⟨s.statusByte p, ?_, ?_, ?_, ?_, ?_, ?_, ?_, hone, hzero⟩
  · rw [exec_status_of_settled (settle_status s p ▸ hcan.settled codeStatus), shiftedOut_eq]
    rfl
  · rw [hready]
    simp [State.readyOut]
  · rw [hsubmitted]
    rcases portCond_cases (s.port p) with ⟨hc, hreq, -⟩ | ⟨hc, hreq, -⟩ | ⟨hc, f, hreq⟩ | ⟨hc, hreq, -⟩ | ⟨hc, hreq, -⟩ <;>
      simp [hc, hreq]
  · rw [htaken]
    rcases portCond_cases (s.port p) with ⟨hc, hreq, -⟩ | ⟨hc, hreq, -⟩ | ⟨hc, f, hreq⟩ | ⟨hc, hreq, -⟩ | ⟨hc, hreq, -⟩ <;>
      simp [hc, hreq]
  · rw [hwaiting]
    rcases portCond_cases (s.port p) with ⟨hc, -, hresp⟩ | ⟨hc, -, hresp⟩ | ⟨hc, f, hreq⟩ | ⟨hc, hreq, -⟩ | ⟨hc, hreq, -⟩
    · simp [hc, hresp]
    · simp [hc, hresp]
    all_goals simp [hc, hresponse (by rw [hreq]; nofun)]
  · rw [hattn, attn_iff]
  · rw [horphan]
    rcases portCond_cases (s.port p) with ⟨hc, hreq, -⟩ | ⟨hc, hreq, -⟩ | ⟨hc, f, hreq⟩ | ⟨hc, -, ho⟩ | ⟨hc, -, ho⟩
    case inr.inr.inr.inl => simp [hc, ho]
    case inr.inr.inr.inr => simp [hc, ho]
    all_goals
      have hclear : (s.port p).orphan = false := by
        by_contra ho
        have := hmark (by simpa using ho)
        rw [hreq] at this
        cases this
      simp [hc, hclear]

/-! ### CANCEL and RESET_PORT (R169 to R171) -/

theorem cancelPort_of_taken {q : Port} (h : q.request = .taken) : cancelPort q = { q with last := .cancelTooLate } := by
  rcases portCond_cases q with ⟨-, hr, -⟩ | ⟨-, hr, -⟩ | ⟨-, f, hr⟩ | ⟨hc, -⟩ | ⟨hc, -⟩
  case inr.inr.inr.inl => simp only [cancelPort, hc]
  case inr.inr.inr.inr => simp only [cancelPort, hc]
  all_goals rw [h] at hr; cases hr

theorem cancelPort_of_waiting {q : Port} (h : q.request = .empty) (hresp : q.response ≠ none) :
    cancelPort q = { q with last := .cancelTooLate } := by
  rcases portCond_cases q with ⟨-, -, hr⟩ | ⟨hc, -⟩ | ⟨-, f, hr⟩ | ⟨-, hr, -⟩ | ⟨-, hr, -⟩
  case inl => exact absurd hr hresp
  case inr.inl => simp only [cancelPort, hc]
  all_goals rw [h] at hr; cases hr

theorem cancelPort_of_empty {q : Port} (h : q.request = .empty) (hresp : q.response = none) :
    cancelPort q = { q with last := .cancelNothing } := by
  have hc : q.cond = .empty := by simp [Port.cond, h, hresp]
  simp only [cancelPort, hc]

/-- Settles O24: `cancelPort` and `clearPort` by the condition of the port, which the law ties to its buffers. -/
theorem cancelAndResetPortByCondition : Obligations.CancelAndResetPortByCondition := by
  intro p bits s
  refine ⟨fun h => ⟨unanswered_of_inReset h rfl, unanswered_of_inReset h rfl⟩, fun _ => ?_⟩
  intro q cancel reset
  have hcancel : ∀ {r}, cancelPort q = r → cancel r := fun hr hcan => by
    rw [exec_cancel_of_settled (hcan.settled (settle_cancel s p) nofun), ← hr]
    rfl
  have hreset : ∀ {r}, clearPort q = r → reset r := fun hr hcan => by
    rw [exec_resetPort_of_settled (hcan.settled (settle_resetPort s p) nofun), ← hr]
    rfl
  have hclear := clearPort_cases q
  refine ⟨fun f hf => ⟨hcancel (cancelPort_of_submitted (cond_of_request_submitted hf)), hreset ?_⟩,
    fun htaken => ⟨hcancel (cancelPort_of_taken htaken), hreset (clearPort_of_taken htaken)⟩,
    fun hempty hresp => ⟨hcancel (cancelPort_of_waiting hempty hresp), hreset ?_⟩,
    fun hempty hresp => ⟨hcancel (cancelPort_of_empty hempty hresp), hreset ?_⟩⟩
  · rcases hclear with ⟨-, hc⟩ | ⟨hr, -⟩ | ⟨⟨hr, -⟩, -⟩ | ⟨hr, -⟩
    case inl => exact hc
    all_goals rw [hf] at hr; cases hr
  · rcases hclear with ⟨⟨f, hr⟩, -⟩ | ⟨hr, -⟩ | ⟨-, hc⟩ | ⟨-, hr, -⟩
    · rw [hempty] at hr; cases hr
    · rw [hempty] at hr; cases hr
    · exact hc
    · exact absurd hr hresp
  · rcases hclear with ⟨⟨f, hr⟩, -⟩ | ⟨hr, -⟩ | ⟨⟨-, hr⟩, -⟩ | ⟨-, -, hc⟩
    · rw [hempty] at hr; cases hr
    · rw [hempty] at hr; cases hr
    · rw [hresp] at hr; cases hr
    · exact hc

/-! ### A transaction cut at the end of its first byte (R159) -/

theorem exec_endOfFirstByte {s : State} {p : PortId} (h : s.CanTransact p) (first : Byte) :
    exec (.endOfFirstByte p first) s = .next (s.setTxn p (s.settle p first)) := by
  show Host.Outcome.next (firstByte p first s) = _
  rw [firstByte, if_neg h.1, if_pos h.2]

theorem runCommands_firstByte {s : State} {p : PortId} (h : s.CanTransact p) {first : Byte} {n : Nat}
    {act : Txn → State → State} {c : Instr} (hc : ∀ u, exec c u = .next (transaction p first n act u)) :
    runCommands [.endOfFirstByte p first, c] s = exec c s := by
  have hsettled : (s.setTxn p (s.settle p first)).Settled p first (s.settle p first) :=
    ⟨h.1, settle_ne_idle s p first, .inl (by rw [port_setTxn_self])⟩
  simp only [runCommands, exec_endOfFirstByte h, hc]
  rw [transaction_of_settled hsettled, transaction_of_settled (h.settled first), setTxn_setTxn]

theorem firstByte_of_ignored {s : State} {p : PortId} (h : (s.port p).txn = .ignored) (first : Byte) :
    firstByte p first s = s := by
  unfold firstByte
  split
  · rfl
  · rw [if_neg (by rw [h]; nofun)]

theorem transaction_of_ignored {s : State} {p : PortId} (h : (s.port p).txn = .ignored) (hphase : s.phase ≠ .inReset)
    {act : Txn → State → State} (hact : act .ignored s = s) (first : Byte) (n : Nat) :
    transaction p first n act s = s := by
  rw [transaction, if_neg hphase, firstByte_of_ignored h, h, hact]

/-- The service of a request leaves every port's transaction in progress. -/
theorem serveFrame_txn {act : List Byte → State → Answer} (hact : LeavesFront act) (isKind : Byte → Bool) (q p : PortId)
    (x : Extent) (s : State) : ((serveFrame isKind act q x s).port p).txn = (s.port p).txn := by
  have hset : ∀ (u : State) (r : Port), r.txn = (u.port q).txn → ((u.setPort q r).port p).txn = (u.port p).txn := by
    intro u r hr
    by_cases hp : q = p
    · subst hp; rw [State.port_setPort_self, hr]
    · rw [State.port_setPort_ne u r hp]
  have htaken : ∀ f, ((act f (s.takeFrom q)).st.port p).txn = (s.port p).txn := fun f => by
    have hport : (act f (s.takeFrom q)).st.port p = (s.takeFrom q).port p := by
      rw [State.port, (hact f (s.takeFrom q)).ports, State.port]
    rw [hport]
    exact hset s _ rfl
  have hdelivered : ∀ (u : State) (resp : List Byte), ((u.deliverTo q resp).port p).txn = (u.port p).txn :=
    fun u resp => hset u { (u.port q) with
      request := .empty, orphan := false, response := if (u.port q).orphan then (u.port q).response else some resp } rfl
  rcases serveFrame_cases isKind act q x s with hs | ⟨f, -, -, hs | hs⟩ | ⟨c, resp, -, -, hs⟩
  · rw [hs]
  · rw [hs]; exact htaken f
  · rw [hs]; exact (hdelivered _ _).trans (htaken f)
  · rw [hs]; exact hdelivered s resp

/-- Settles O25: END_OF_FIRST_BYTE writes what `settle` gives, no request's take or delivery touches it, and each
deassertion acts on it. -/
theorem firstByteThenDeassertion : Obligations.FirstByteThenDeassertion := by
  intro p s known waiting noted
  have hknown : known = transactionCodes := rfl
  refine ⟨fun hcan => ⟨fun first c hc => ?_, exec_endOfFirstByte hcan _, ?_, exec_endOfFirstByte hcan _,
    exec_endOfFirstByte hcan _, exec_endOfFirstByte hcan _, fun first bits hfirst => ?_⟩, fun bits hphase => ?_,
    fun q x c t hc hexec => ?_, fun hphase first bits => ?_, fun _ => rfl, fun hignored => ?_⟩
  · rcases hc with ⟨rfl, frame, extra, rfl⟩ | ⟨rfl, bits, rfl⟩ | ⟨rfl, bits, rfl⟩ | ⟨rfl, bits, rfl⟩ | ⟨rfl, bits, rfl⟩ |
      ⟨hfirst, bits, rfl⟩
    case inr.inr.inr.inr.inr => exact runCommands_firstByte hcan fun u => exec_unknownTransaction hfirst
    all_goals exact runCommands_firstByte hcan fun u => rfl
  · have hsettle := settle_collect s p
    rw [show (0xA2 : Byte) = codeCollect from rfl, exec_endOfFirstByte hcan, hsettle]
    rfl
  · rw [exec_endOfFirstByte hcan, settle_unknown s p hfirst]
    exact ⟨rfl, exec_unknownTransaction_of_settled hfirst (settle_unknown s p hfirst ▸ hcan.settled first)⟩
  · refine ⟨fun a b htxn => ?_, fun resp htxn => ?_, fun htxn => ?_, fun htxn first hfirst => ?_⟩
    · rw [exec_status_of_settled ⟨hphase, nofun, .inl htxn⟩, shiftedOut_eq]
      rfl
    · rw [exec_collect_of_some ⟨hphase, nofun, .inl htxn⟩]
      split
      · next hlen => rw [shiftedOut_of_whole hlen]
      · next hlen => rw [shiftedOut_of_cut (not_le.1 hlen)]
    · rw [exec_collect_of_none ⟨hphase, nofun, .inl htxn⟩, shiftedOut_eq]
      rfl
    · exact exec_unknownTransaction_of_settled hfirst ⟨hphase, nofun, .inl htxn⟩
  · rcases hc with rfl | ⟨k, rfl⟩
    · rw [exec_unknownKind] at hexec
      cases hexec
      exact serveFrame_txn leavesFront_unknownKind _ q p x s
    · rw [exec_requestInstr] at hexec
      cases hexec
      exact serveFrame_txn (leavesFront_admission k q) _ q p x s
  · refine ⟨?_, fun hfirst => unanswered_of_inReset hphase (exec_unknownTransaction hfirst)⟩
    show Host.Outcome.next (firstByte p first s) = _
    rw [firstByte, if_pos hphase]
  · refine ⟨?_, fun hphase first bits frame extra => ?_⟩
    · show Host.Outcome.next (rearm p s) = _
      rw [rearm, if_pos hignored]
      rfl
    · have hquiet : ∀ {act : Txn → State → State}, act .ignored s = s → ∀ first n,
          Host.Outcome.next (transaction p first n act s) = (.next s : Host.Outcome State Fault Refusal) :=
        fun hact first n => by rw [transaction_of_ignored hignored hphase hact]
      refine ⟨congrArg Host.Outcome.next (firstByte_of_ignored hignored first), hquiet rfl _ _, hquiet rfl _ _,
        hquiet rfl _ _, hquiet rfl _ _, hquiet rfl _ _, ?_⟩
      by_cases hfirst : first ∈ transactionCodes
      · exact congrArg Host.Outcome.next (if_pos (by simpa using hfirst))
      · rw [exec_unknownTransaction hfirst]
        exact hquiet rfl _ _

end Sys2Proof.Machine
end

section
/-! PROOF. Start-up (chapter 10), the tick and its expiries (R49, R51, R109, R151), strobe edges (R108) and internal
work with the lapse item (R61 to R63, R117, R118). -/
namespace Sys2Proof.Machine

/-! ### Start-up (R173 to R175) -/

theorem exec_nrstAssert (s : State) : exec .nrstAssert s = .next (resetAssert s) := rfl

theorem exec_nrstRelease {s : State} (h : s.phase = .inReset) (low0 low1 : Bool) :
    exec (.nrstRelease low0 low1) s = .next { s with
      phase := .initialising
      ports := (s.ports.set 0 ((s.port 0).atRelease low0)).set 1 ((s.port 1).atRelease low1) } :=
  congrArg Host.Outcome.next (if_pos h)

theorem exec_readyRise {s : State} (h : s.phase = .initialising) (levels : FinSet 4) :
    exec (.readyRise levels) s = .next { s with phase := .ready, freeList := allSlots, applyLevels := levels } :=
  congrArg Host.Outcome.next (if_pos h)

/-- The ports after reset, at the release of nRST. -/
def portsAtRelease (low0 low1 : Bool) : Tab 2 Port :=
  ((Tab.replicate 2 Port.powerOn).set 0 (Port.powerOn.atRelease low0)).set 1 (Port.powerOn.atRelease low1)

/-- The part once READY has risen after an assertion of nRST. -/
def State.startedUp (s : State) (low0 low1 : Bool) (levels : FinSet 4) : State :=
  { resetAssert s with
    phase := .ready, freeList := allSlots, applyLevels := levels, ports := portsAtRelease low0 low1 }

theorem runCommands_startUp (s : State) (low0 low1 : Bool) (levels : FinSet 4) :
    runCommands [.nrstAssert, .nrstRelease low0 low1, .readyRise levels] s = .next (s.startedUp low0 low1 levels) := by
  simp only [runCommands, exec_nrstAssert]
  rw [exec_nrstRelease rfl]
  dsimp only
  rw [exec_readyRise rfl, port_resetAssert, port_resetAssert]
  rfl

theorem laws_startedUp (s : State) (low0 low1 : Bool) (levels : FinSet 4) : (s.startedUp low0 low1 levels).Laws := by
  have hreset := laws_resetAssert s
  have hreleased := exec_keeps_laws hreset (exec_nrstRelease rfl low0 low1)
  have hrisen := exec_keeps_laws hreleased (exec_readyRise rfl levels)
  rw [port_resetAssert, port_resetAssert] at hrisen
  exact hrisen

theorem freeList_startedUp (s : State) (low0 low1 : Bool) (levels : FinSet 4) :
    (s.startedUp low0 low1 levels).freeList = allSlots := by
  dsimp only [State.startedUp]

theorem poweredOn_startedUp (s : State) (low0 low1 : Bool) (levels : FinSet 4) :
    (s.startedUp low0 low1 levels).PoweredOn := ⟨rfl, rfl, rfl, rfl, rfl, rfl, rfl, rfl, rfl⟩

theorem port_startedUp (s : State) (low0 low1 : Bool) (levels : FinSet 4) (p : PortId) :
    ∃ low, (s.startedUp low0 low1 levels).port p = Port.powerOn.atRelease low := by
  have hget : (s.startedUp low0 low1 levels).port p = if 1 = p then Port.powerOn.atRelease low1
      else if 0 = p then Port.powerOn.atRelease low0 else Port.powerOn := by
    show (portsAtRelease low0 low1).get p = _
    rw [portsAtRelease, Tab.get_set, Tab.get_set, Tab.get_replicate]
  have hp : ∀ p : PortId, 1 = p ∨ 0 = p := by decide
  rcases hp p with rfl | rfl
  · exact ⟨low1, hget⟩
  · exact ⟨low0, hget⟩

theorem holds_startedUp (s : State) (low0 low1 : Bool) (levels : FinSet 4) {a : Agent} (ha : a ≠ 0) (c : ClassNo)
    (x : Right) : (s.startedUp low0 low1 levels).holds a c x = false := by
  have hval : a.val ≠ 0 := fun h => ha (Fin.ext h)
  have hrights : (s.startedUp low0 low1 levels).rights = Tab.replicate 7 (Tab.replicate 8 (FinSet.empty 7)) := rfl
  rw [State.holds, State.rightsOf, dif_neg hval, hrights, Tab.get_replicate, Tab.get_replicate, FinSet.mem_empty]

theorem poolFree_of_no_record {s : State} (h : ∀ i, s.record i = none) : s.poolFree = 64 := by
  rw [State.poolFree, claimsInUse_eq_sum]
  simp [h, queueLength, Config.poolSize]

/-- Settles O26: the three events one after the other, from any state. -/
theorem startUpBringsPowerOnValues : Obligations.StartUpBringsPowerOnValues := by
  intro s low0 low1 levels
  refine ⟨exec_nrstAssert s, fun h => exec_nrstRelease h low0 low1, fun h => exec_readyRise h levels,
    s.startedUp low0 low1 levels, runCommands_startUp s low0 low1 levels, laws_startedUp s low0 low1 levels, rfl, ?_⟩
  have hon := poweredOn_startedUp s low0 low1 levels
  refine ⟨Tab.get_replicate _, rfl, freeList_startedUp s low0 low1 levels, poolFree_of_no_record hon.record,
    fun a ha c x => holds_startedUp s low0 low1 levels ha c x, fun a => ?_, rfl, fun a => ?_, fun g => ?_, rfl, rfl,
    hon.channel, rfl, rfl, fun p => ?_, rfl, rfl⟩
  · rw [hon.row]
    exact ⟨rfl, rfl, rfl, rfl, rfl, rfl, rfl, rfl⟩
  · rw [hon.lostAgents]
    exact FinSet.mem_empty a
  · rw [hon.group]
    exact ⟨rfl, rfl, rfl, FinSet.mem_empty, rfl, rfl⟩
  · obtain ⟨low, hport⟩ := port_startedUp s low0 low1 levels p
    refine ⟨by rw [hport]; rfl, by rw [hport]; rfl, ?_⟩
    simp [State.attn, State.hasAttention, hon.row, hport, Port.atRelease, Port.powerOn, AgentRow.powerOn]

/-! ### The tick (R49, R51, R109, R151) -/

/-- A row at a tick: its countdown one tick lower, and expired if that is zero. -/
def AgentRow.ticked (row : AgentRow) : AgentRow :=
  AgentRow.expire { row with countdown := tickCount row.countdown }

def Group.ticked (g : Group) : Group := Group.expire { g with counter := tickCount g.counter }

section
variable {row : AgentRow} {g : Group}

theorem ticked_row_of_stopped (h : row.countdown = none) : row.ticked = row := by
  cases row; cases h; rfl

theorem ticked_row_of_one (h : row.countdown = some 1) : row.ticked = { row with countdown := none, expired := true } := by
  cases row; cases h; rfl

theorem ticked_row_of_more {n : Nat} (h : row.countdown = some (n + 2)) :
    row.ticked = { row with countdown := some (n + 1) } := by
  cases row; cases h; rfl

theorem ticked_group_of_stopped (h : g.counter = none) : g.ticked = g := by
  cases g; cases h; exact if_neg (by simp [tickCount])

theorem ticked_group_of_one (htrigger : g.trigger = .period) (h : g.counter = some 1) :
    g.ticked = { g with pending := true, counter := some g.period } := by
  cases g; cases h; exact if_pos ⟨htrigger, rfl⟩

theorem ticked_group_of_more {n : Nat} (h : g.counter = some (n + 2)) : g.ticked = { g with counter := some (n + 1) } := by
  cases g; cases h; exact if_neg (by simp [tickCount])

end

theorem row_countDown_expireAll (s : State) (a : Agent) : s.countDown.expireAll.row a = (s.row a).ticked := by
  rw [row_expireAll, row_countDown]
  rfl

theorem group_countDown_expireAll (s : State) (g : GroupNo) : s.countDown.expireAll.group g = (s.group g).ticked := by
  have hcounted : s.countDown.group g = { (s.group g) with counter := tickCount (s.group g).counter } :=
    Tab.get_map _ s.groups g
  rw [group_expireAll, hcounted]
  rfl

theorem link_expireLink_congr {s t : State} (hlink : t.link = s.link) (hstalled : t.linkStalled = s.linkStalled)
    (hzero : (t.row 0).state = (s.row 0).state) :
    t.expireLink.link = s.expireLink.link ∧ t.expireLink.linkStalled = s.expireLink.linkStalled := by
  by_cases hdue : ∃ f n, s.link = .awaitAck f n 0
  · obtain ⟨f, n, hs⟩ := hdue
    have ht : t.link = .awaitAck f n 0 := hlink.trans hs
    by_cases hn : n < Config.maxAttempts
    · rw [expireLink_of_attempt_left ht hn, expireLink_of_attempt_left hs hn]
      exact ⟨rfl, hstalled⟩
    · rw [expireLink_of_last_attempt ht hn, expireLink_of_last_attempt hs hn, hzero, hstalled]
      exact ⟨rfl, rfl⟩
  · have hs : ∀ f n, s.link ≠ .awaitAck f n 0 := fun f n h => hdue ⟨f, n, h⟩
    rw [expireLink_of_not_due hs, expireLink_of_not_due fun f n => hlink ▸ hs f n]
    exact ⟨hlink, hstalled⟩

/-- The link's part of the expiries does not look at the other timers. -/
theorem link_expireAll (s : State) :
    s.expireAll.link = s.expireLink.link ∧ s.expireAll.linkStalled = s.expireLink.linkStalled := by
  refine link_expireLink_congr rfl rfl ?_
  rw [State.row, Tab.get_map, state_expire]
  rfl

theorem exec_tick_of_not_ready {s : State} (h : s.phase ≠ .ready) (e : Expiries) : exec (.tick e) s = .next s :=
  congrArg Host.Outcome.next (if_neg h)

theorem exec_tick_of_ready {s : State} (h : s.phase = .ready) (e : Expiries) : exec (.tick e) s = .next
    (match e with | .within => s.expireAll.countDown.expireAll | .apart => s.expireAll.countDown) :=
  congrArg Host.Outcome.next (if_pos h)

theorem row_zero_countDown_state (s : State) : (s.countDown.row 0).state = (s.row 0).state := by
  rw [row_countDown]

/-- Settles O27: with no expiry left over, the tick counts down and then carries out the expiries it brings. -/
theorem tickCountsAndExpires : Obligations.TickCountsAndExpires := by
  intro s
  refine ⟨fun e h => exec_tick_of_not_ready h e, fun hready htaken => ⟨s.countDown.expireAll, ?_, ?_, fun a => ?_,
    fun g => ?_, ?_⟩⟩
  · rw [exec_tick_of_ready hready]
    dsimp only
    rw [expireAll_of_taken htaken]
  · unfold State.expireAll
    rw [expireLink_eq]
    rfl
  · rw [row_countDown_expireAll]
    exact ⟨ticked_row_of_stopped, ticked_row_of_one, fun n => ticked_row_of_more⟩
  · rw [group_countDown_expireAll]
    exact ⟨ticked_group_of_stopped, ticked_group_of_one, fun n => ticked_group_of_more⟩
  · obtain ⟨hlink, hstalled⟩ := link_expireAll s.countDown
    rw [hlink, hstalled]
    have hcounted : ∀ {l : Link}, s.link = l → s.countDown.link = l.tick := fun h => congrArg Link.tick h
    refine ⟨fun f n h hn => ?_, fun f n h hn => ?_, fun f n m h => ?_, fun h => ?_⟩
    · rw [expireLink_of_attempt_left (hcounted h) hn]
      exact ⟨rfl, rfl⟩
    · rw [expireLink_of_last_attempt (hcounted h) (not_lt.2 hn), row_zero_countDown_state]
      exact ⟨rfl, rfl⟩
    · have htick : s.countDown.link = .awaitAck f n (m + 1) := hcounted h
      rw [expireLink_of_not_due fun g k hdue => by rw [htick] at hdue; cases hdue]
      exact ⟨htick, rfl⟩
    · have htick : s.countDown.link = s.link := by
        cases hl : s.link with
        | awaitAck f n m => exact absurd hl (h f n m)
        | _ => rw [hcounted hl]; rfl
      rw [expireLink_of_not_due fun g k hdue => h g k 0 (by rw [← htick]; exact hdue)]
      exact ⟨htick, rfl⟩

/-! ### The expiries as events of their own (log 5) -/

/-- Entries of a table rewritten one after the other, each once. -/
theorem get_foldl_set {n : Nat} {α : Type} (F : α → α) (l : List (Fin n)) (hl : l.Nodup) (t : Tab n α) (j : Fin n) :
    (l.foldl (fun t i => t.set i (F (t.get i))) t).get j = if j ∈ l then F (t.get j) else t.get j := by
  induction l generalizing t with
  | nil => simp
  | cons i l ih =>
    obtain ⟨hi, hl⟩ := List.nodup_cons.1 hl
    rw [List.foldl_cons, ih hl]
    by_cases hj : j = i
    · subst hj; simp [hi]
    · simp [hj, Ne.symm hj]

theorem foldl_set_all {n : Nat} {α : Type} (F : α → α) (t : Tab n α) :
    (List.finRange n).foldl (fun t i => t.set i (F (t.get i))) t = t.map F := by
  apply Tab.ext_get
  intro j
  rw [get_foldl_set F _ (List.nodup_finRange n), if_pos (List.mem_finRange j), Tab.get_map]

theorem runCommands_keepaliveExpiries (l : List Agent) (cs : List Instr) (s : State) :
    runCommands (l.map .keepaliveExpiry ++ cs) s = runCommands cs { s with
      agents := l.foldl (fun t a => t.set a (t.get a).expire) s.agents } := by
  induction l generalizing s with
  | nil => rfl
  | cons a l ih => exact ih (s.setRow a (s.row a).expire)

theorem runCommands_periodExpiries (l : List GroupNo) (cs : List Instr) (s : State) :
    runCommands (l.map .periodExpiry ++ cs) s = runCommands cs { s with
      groups := l.foldl (fun t g => t.set g (t.get g).expire) s.groups } := by
  induction l generalizing s with
  | nil => rfl
  | cons g l ih => exact ih (s.setGroup g (s.group g).expire)

/-- Every expiry as an event of its own, one after the other, is all of them at once. -/
theorem runCommands_expiries (s : State) :
    runCommands ((List.finRange 8).map .keepaliveExpiry ++ ((List.finRange 8).map .periodExpiry
      ++ [.acknowledgeTimerExpiry])) s = .next s.expireAll := by
  rw [runCommands_keepaliveExpiries, runCommands_periodExpiries, foldl_set_all AgentRow.expire,
    foldl_set_all Group.expire]
  rfl

theorem expire_expire_row (row : AgentRow) : row.expire.expire = row.expire := by
  unfold AgentRow.expire
  by_cases h : row.countdown = some 0
  · rw [if_pos h]
    exact if_neg (by simp)
  · rw [if_neg h, if_neg h]

theorem expire_expire_group (g : Group) : g.expire.expire = g.expire := by
  by_cases h : g.trigger = .period ∧ g.counter = some 0
  · have hexpired : g.expire = { g with pending := true, counter := some g.period } := if_pos h
    rw [hexpired]
    unfold Group.expire
    split <;> rfl
  · have hkept : g.expire = g := if_neg h
    rw [hkept, hkept]

theorem expireLink_not_due (s : State) (f : Update) (n : Nat) : s.expireLink.link ≠ .awaitAck f n 0 := by
  unfold State.expireLink
  split
  · split <;> nofun
  · next hnot => exact fun h => hnot f n h

/-- The expiries carried out, none is left. -/
theorem expireAll_expireAll (s : State) : s.expireAll.expireAll = s.expireAll := by
  have hagents : s.expireAll.agents.map AgentRow.expire = s.expireAll.agents := by
    apply Tab.ext_get
    intro a
    rw [Tab.get_map]
    have hrow : s.expireAll.agents.get a = (s.row a).expire := row_expireAll s a
    rw [hrow, expire_expire_row]
  have hgroups : s.expireAll.groups.map Group.expire = s.expireAll.groups := by
    apply Tab.ext_get
    intro g
    rw [Tab.get_map]
    have hgroup : s.expireAll.groups.get g = (s.group g).expire := group_expireAll s g
    rw [hgroup, expire_expire_group]
  have hlink : s.expireAll.expireLink = s.expireAll := expireLink_of_not_due fun f n => expireLink_not_due _ f n
  show State.expireLink { s.expireAll with agents := s.expireAll.agents.map AgentRow.expire
                                           groups := s.expireAll.groups.map Group.expire } = s.expireAll
  rw [hagents, hgroups]
  exact hlink

/-- Settles O28: each expiry's event writes its own timer, so the events in a row write what `expireAll` writes, and a
tick takes expiries left over first. -/
theorem expiriesApartFromTheTick : Obligations.ExpiriesApartFromTheTick := by
  intro s
  refine ⟨fun a h => ?_, fun g htrigger h => ?_, fun hready htaken => ?_, fun e => ?_⟩
  · exact congrArg (fun row => Host.Outcome.next (s.setRow a row)) (if_pos h)
  · exact congrArg (fun r => Host.Outcome.next (s.setGroup g r)) (if_pos ⟨htrigger, h⟩)
  · have happart : runCommands ([.tick .apart] ++ (List.finRange 8).map .keepaliveExpiry
        ++ (List.finRange 8).map .periodExpiry ++ [.acknowledgeTimerExpiry]) s
        = runCommands ((List.finRange 8).map .keepaliveExpiry ++ ((List.finRange 8).map .periodExpiry
          ++ [.acknowledgeTimerExpiry])) s.expireAll.countDown := by
      rw [List.append_assoc, List.append_assoc, List.singleton_append, runCommands, exec_tick_of_ready hready]
    rw [happart, runCommands_expiries, exec_tick_of_ready hready]
  · by_cases hready : s.phase = .ready
    · have hstill : s.expireAll.phase = .ready := (phase_expireAll s).trans hready
      rw [if_pos hready, exec_tick_of_ready hready, exec_tick_of_ready hstill, expireAll_expireAll]
    · rw [if_neg hready]

/-! ### Strobe edges (R108) -/

theorem raise_if_watching (g : Group) (n : StrobeNo) : (if g.watchesStrobe n then g.raise else g) =
    { g with pending := g.pending || (g.trigger == .strobe && g.strobe == n) } := by
  unfold Group.watchesStrobe Group.raise
  split
  · next h => rw [h, Bool.or_true]
  · next h => rw [Bool.eq_false_iff.2 h, Bool.or_false]

/-- Settles O29: an edge is a change of the level last seen. -/
theorem strobeEdgesRaiseApplyEvents : Obligations.StrobeEdgesRaiseApplyEvents := by
  intro n s
  have hrise : exec (.applyStrobeEdge n) s = .next (strobeRise n s) := rfl
  have hfall : exec (.strobeFallingEdge n) s = .next (strobeFall n s) := rfl
  rw [hrise, hfall]
  unfold strobeRise strobeFall
  refine ⟨fun h => ?_, fun hready => ⟨fun hlow => ?_, fun hhigh => ?_, ?_⟩⟩
  · rw [if_neg fun hc => h hc.1, if_neg h]
    exact ⟨rfl, rfl⟩
  · rw [if_pos ⟨hready, hlow⟩]
    exact ⟨_, rfl, rfl, fun g => (Tab.get_map _ s.groups g).trans (raise_if_watching _ n)⟩
  · rw [if_neg fun hc => by rw [hhigh] at hc; cases hc.2]
  · rw [if_pos hready]

/-! ### The choice of internal work (R117, R118) -/

section
variable {s : State}

theorem exec_lapseItem_of_lowest {a : Agent} (hgrant : s.grant = some .internal) (ha : (s.row a).expired = true)
    (hlowest : ∀ b, b < a → (s.row b).expired = false) :
    exec .lapseItem s = .next (s.grantInternal.lapseAgent a) := by
  have hfirst : s.firstExpired = some a := find_lowest (fun b => (s.row b).expired) a ha hlowest
  have harm : exec .lapseItem s = .next (lapseWork s) := rfl
  simp only [harm, lapseWork, if_pos hgrant, hfirst]

theorem exec_lapseItem_of_none (hnone : ∀ a, (s.row a).expired = false) : exec .lapseItem s = .next s := by
  have hfirst : s.firstExpired = none := find_none (fun b => (s.row b).expired) hnone
  have harm : exec .lapseItem s = .next (lapseWork s) := rfl
  simp only [harm, lapseWork, hfirst, ite_self]

theorem noLapse_iff : s.noLapse = true ↔ ∀ a, (s.row a).expired = false := by
  simp [State.noLapse, allAgents]

theorem exec_sweepStep_of_lapse {a : Agent} (ha : (s.row a).expired = true) : exec .sweepStep s = .next s := by
  have harm : exec .sweepStep s = .next (sweepStepWork s) := rfl
  have hlapse : ¬ (s.grant = some .internal ∧ s.noLapse = true) := fun hc => by
    rw [noLapse_iff.1 hc.2 a] at ha
    cases ha
  rw [harm, sweepStepWork, if_neg hlapse]

theorem exec_sweepStart_of_lapse {a : Agent} (ha : (s.row a).expired = true) : exec .sweepStart s = .next s := by
  have harm : exec .sweepStart s = .next (sweepStartWork s) := rfl
  have hlapse : ¬ (s.grant = some .internal ∧ s.noLapse = true ∧ s.sweep = none) := fun hc => by
    rw [noLapse_iff.1 hc.2.1 a] at ha
    cases ha
  rw [harm, sweepStartWork, if_neg hlapse]

theorem exec_sweepStart_of_sweeping {w : Sweep} (h : s.sweep = some w) : exec .sweepStart s = .next s := by
  have harm : exec .sweepStart s = .next (sweepStartWork s) := rfl
  have hsweep : ¬ (s.grant = some .internal ∧ s.noLapse = true ∧ s.sweep = none) := fun hc => by
    rw [h] at hc
    cases hc.2.2
  rw [harm, sweepStartWork, if_neg hsweep]

theorem exec_sweepStep_of_no_sweep (h : s.sweep = none) : exec .sweepStep s = .next s := by
  have harm : exec .sweepStep s = .next (sweepStepWork s) := rfl
  simp only [harm, sweepStepWork, h, ite_self]

theorem exec_sweepStart_of_lowest {g : GroupNo} (hgrant : s.grant = some .internal)
    (hlapse : ∀ a, (s.row a).expired = false) (hsweep : s.sweep = none) (hg : (s.group g).pending = true)
    (hlowest : ∀ b, b < g → (s.group b).pending = false) :
    exec .sweepStart s = .next (s.grantInternal.beginSweep g) := by
  have hfirst : s.firstPending = some g := find_lowest (fun b => (s.group b).pending) g hg hlowest
  have harm : exec .sweepStart s = .next (sweepStartWork s) := rfl
  have hturn : s.grant = some .internal ∧ s.noLapse = true ∧ s.sweep = none := ⟨hgrant, noLapse_iff.2 hlapse, hsweep⟩
  simp only [harm, sweepStartWork, if_pos hturn, hfirst]

theorem exec_internal_of_not_granted (h : s.grant ≠ some .internal) :
    exec .lapseItem s = .next s ∧ exec .sweepStep s = .next s ∧ exec .sweepStart s = .next s :=
  ⟨congrArg Host.Outcome.next (if_neg h), congrArg Host.Outcome.next (if_neg fun hc => h hc.1),
    congrArg Host.Outcome.next (if_neg fun hc => h hc.1)⟩

end

/-- Settles O30: each item's command tests that the items before it are not waiting. -/
theorem internalWorkChosenInOrder : Obligations.InternalWorkChosenInOrder := by
  intro s
  refine ⟨fun hgrant => ⟨fun a ha hlowest => ?_, fun hlapse => ⟨exec_lapseItem_of_none hlapse, fun w hw => ?_,
    fun hsweep => ⟨exec_sweepStep_of_no_sweep hsweep, fun g hg hlowest => ?_⟩⟩⟩, exec_internal_of_not_granted⟩
  · exact ⟨exec_lapseItem_of_lowest hgrant ha hlowest, exec_sweepStep_of_lapse ha, exec_sweepStart_of_lapse ha⟩
  · exact ⟨exec_sweepStep_of_grant hgrant hlapse hw, exec_sweepStart_of_sweeping hw⟩
  · rw [exec_sweepStart_of_lowest hgrant hlapse hsweep hg hlowest]
    rfl

/-! ### The lapse item (R61 to R63) -/

theorem loseSession_frame (s : State) (a : Agent) : s.loseSession a = { s with
    agents := (s.loseSession a).agents, slots := (s.loseSession a).slots, linkStalled := (s.loseSession a).linkStalled
    lostAgents := (s.loseSession a).lostAgents } := by
  unfold State.loseSession
  rw [clearSupervisor_frame]
  rfl

theorem slot_loseSession (s : State) (a : Agent) (i : SlotNo) : (s.loseSession a).slots.get i =
    { inc := (s.slots.get i).inc, record := (s.record i).map (Record.dropAgent · a) } := by
  unfold State.loseSession
  rw [slots_clearSupervisor]
  exact Tab.get_map _ _ i

theorem flags_loseSession (s : State) (a : Agent) :
    (a = 0 → (s.loseSession a).linkStalled = false ∧ (s.loseSession a).lostAgents = FinSet.empty 8)
      ∧ (a ≠ 0 → (s.loseSession a).linkStalled = s.linkStalled ∧ (s.loseSession a).lostAgents = s.lostAgents) :=
  flags_clearSupervisor _ a

/-- Taking an agent out of queues and watcher sets moves no record from one owner to another. -/
theorem heldSlots_of_records {s t : State} {a : Agent}
    (h : ∀ i, t.record i = (s.record i).map (Record.dropAgent · a)) (b : Agent) : t.heldSlots b = s.heldSlots b := by
  refine List.filter_congr fun i _ => ?_
  rw [h]
  cases s.record i <;> rfl

theorem row_foldl_lapseStep_of_apart {b : Agent} (l : List SlotNo) (hl : l.Nodup) (s : State)
    (hapart : ∀ i ∈ l, ∀ r, s.record i = some r → r.watchers.mem b = false ∧ b ∉ r.queue) :
    (l.foldl State.lapseStep s).row b = s.row b := by
  induction l generalizing s with
  | nil => rfl
  | cons i l ih =>
    obtain ⟨hi, hl⟩ := List.nodup_cons.1 hl
    have hrow : (s.lapseStep i).row b = s.row b := by
      cases hrec : s.record i with
      | none => simp only [State.lapseStep, hrec]
      | some r =>
        obtain ⟨hwatch, hqueue⟩ := hapart i List.mem_cons_self r hrec
        have hhead : r.queue.head? ≠ some b := fun hb => hqueue (List.mem_of_mem_head? hb)
        simp only [row_lapseStep hrec, hwatch, Bool.false_eq_true, if_false, if_neg hhead]
    rw [List.foldl_cons, ih hl, hrow]
    intro j hj r hr
    rw [record_lapseStep, if_neg fun (heq : j = i) => hi (heq ▸ hj)] at hr
    exact hapart j (List.mem_cons_of_mem i hj) r hr

theorem foldl_lapseStep_of_unbound (l : List SlotNo) (hl : l.Nodup) (s : State)
    (hunbound : ∀ i ∈ l, ∀ r, s.record i = some r → r.binding = none) :
    (l.foldl State.lapseStep s).updateQueue = s.updateQueue ∧ (l.foldl State.lapseStep s).channels = s.channels := by
  induction l generalizing s with
  | nil => exact ⟨rfl, rfl⟩
  | cons i l ih =>
    obtain ⟨hi, hl⟩ := List.nodup_cons.1 hl
    have hstep : (s.lapseStep i).updateQueue = s.updateQueue ∧ (s.lapseStep i).channels = s.channels := by
      cases hrec : s.record i with
      | none => simp only [State.lapseStep, hrec, and_self]
      | some r => exact lapseStep_quiet hrec (.inl (hunbound i List.mem_cons_self r hrec))
    obtain ⟨hqueue, hchannels⟩ := ih hl (s.lapseStep i) fun j hj r hr => by
      rw [record_lapseStep, if_neg fun (heq : j = i) => hi (heq ▸ hj)] at hr
      exact hunbound j (List.mem_cons_of_mem i hj) r hr
    exact ⟨hqueue.trans hstep.1, hchannels.trans hstep.2⟩

/-- The lost-agent set and LINK_STALLED after a lapse. -/
theorem flags_lapseAgent (s : State) (a : Agent) :
    (a ≠ 0 → (s.row 0).state = .attached → (s.lapseAgent a).lostAgents = s.lostAgents.insert a)
      ∧ (a ≠ 0 → (s.row 0).state ≠ .attached → (s.lapseAgent a).lostAgents = s.lostAgents)
      ∧ (a ≠ 0 → (s.lapseAgent a).linkStalled = s.linkStalled)
      ∧ (a = 0 → (s.lapseAgent a).linkStalled = false ∧ (s.lapseAgent a).lostAgents = FinSet.empty 8) := by
  obtain ⟨hsup, hother⟩ := flags_loseSession s a
  obtain ⟨hstalled, hlost⟩ := flags_foldl (a := a) (fun s i => lapseStep_touched s a i) ((s.loseSession a).heldSlots a)
    (s.loseSession a)
  have hlapse : (s.lapseAgent a).linkStalled = (s.loseSession a).linkStalled := by
    unfold State.lapseAgent
    rw [recordLoss_frame]
    exact hstalled
  have hzero : a ≠ 0 → ((((s.loseSession a).heldSlots a).foldl State.lapseStep (s.loseSession a)).row 0).state
      = (s.row 0).state := fun ha => by
    have htold := row_foldl_told (a := a) (fun s i => lapseStep_touched s a i) ((s.loseSession a).heldSlots a)
      (s.loseSession a) 0
    rw [htold.sameSession.state, row_loseSession, if_neg (Ne.symm ha)]
  refine ⟨fun ha h0 => ?_, fun ha h0 => ?_, fun ha => hlapse.trans (hother ha).1, fun ha => ⟨hlapse.trans (hsup ha).1, ?_⟩⟩
  · unfold State.lapseAgent State.recordLoss
    rw [if_pos ⟨ha, (hzero ha).trans h0⟩]
    show FinSet.insert _ a = _
    rw [hlost, (hother ha).2]
  · unfold State.lapseAgent State.recordLoss
    rw [if_neg fun hc => h0 ((hzero ha).symm.trans hc.2), hlost, (hother ha).2]
  · unfold State.lapseAgent State.recordLoss
    rw [if_neg fun hc => hc.1 ha, hlost, (hsup ha).2]

/-- Agents that neither watch nor wait for a record of the lapsing agent are told nothing. -/
theorem row_lapseAgent_of_apart (s : State) {a b : Agent} (hb : b ≠ a)
    (hapart : ∀ i r, s.record i = some r → r.state = .held a → r.watchers.mem b = false ∧ b ∉ r.queue) :
    (s.lapseAgent a).row b = s.row b := by
  unfold State.lapseAgent
  rw [row_recordLoss, row_foldl_lapseStep_of_apart _ (nodup_heldSlots _ a), row_loseSession, if_neg hb]
  intro i hi r hr
  obtain ⟨x, hx, hheld⟩ := (mem_heldSlots _ a i).1 hi
  rw [hx] at hr
  cases hr
  rw [record_loseSession, Option.map_eq_some_iff] at hx
  obtain ⟨y, hy, rfl⟩ := hx
  obtain ⟨hwatch, hqueue⟩ := hapart i y hy hheld
  refine ⟨?_, fun hmem => hqueue (List.mem_filter.1 hmem).1⟩
  show (y.watchers.erase a).mem b = false
  simp [hwatch]

/-- Unbound records lapse without a notice. -/
theorem output_lapseAgent_of_unbound (s : State) {a : Agent}
    (hunbound : ∀ i r, s.record i = some r → r.state = .held a → r.binding = none) :
    (s.lapseAgent a).updateQueue = s.updateQueue ∧ (s.lapseAgent a).channels = s.channels := by
  have hfold := foldl_lapseStep_of_unbound _ (nodup_heldSlots (s.loseSession a) a) (s.loseSession a) fun i hi r hr => by
    obtain ⟨x, hx, hheld⟩ := (mem_heldSlots _ a i).1 hi
    rw [hx] at hr
    cases hr
    rw [record_loseSession, Option.map_eq_some_iff] at hx
    obtain ⟨y, hy, rfl⟩ := hx
    exact hunbound i y hy hheld
  have hlose : (s.loseSession a).updateQueue = s.updateQueue ∧ (s.loseSession a).channels = s.channels := by
    rw [loseSession_frame]
    exact ⟨rfl, rfl⟩
  unfold State.lapseAgent
  rw [recordLoss_frame]
  exact ⟨hfold.1.trans hlose.1, hfold.2.trans hlose.2⟩

/-- Settles O32: the session goes down, then the records it held lapse, and the loss is recorded. -/
theorem lapseItemTakesSessionDown : Obligations.LapseItemTakesSessionDown := by
  intro s a hgrant ha hlowest held
  have hrows := row_lapseAgent s.grantInternal a
  have hstore := (State.SameStore.refl s.grantInternal).lapseAgent a
  have hfront := (State.SameFront.refl s.grantInternal).lapseAgent a
  obtain ⟨hinsert, hkept, hstalled, hsup⟩ := flags_lapseAgent s.grantInternal a
  have hdownRow := row_loseSession s.grantInternal a
  have hheld : held = (s.grantInternal.loseSession a).heldSlots a :=
    (heldSlots_of_records (record_loseSession s.grantInternal a) a).symm
  have hrow : (s.grantInternal.lapseAgent a).row a = (s.row a).lose := (hrows a).1 rfl
  refine ⟨s.grantInternal.lapseAgent a, s.grantInternal.loseSession a, exec_lapseItem_of_lowest hgrant ha hlowest,
    ⟨loseSession_frame s.grantInternal a, fun b hb => ?_, ?_, slot_loseSession s.grantInternal a,
      (flags_loseSession s.grantInternal a).1, (flags_loseSession s.grantInternal a).2, ?_⟩, hrow,
    record_lapseAgent s.grantInternal a, fun b hb => ?_, fun b hb => row_lapseAgent_of_apart s.grantInternal hb, hinsert,
    hkept, hstalled, hsup, ?_⟩
  · rw [hdownRow, if_neg hb]
    rfl
  · rw [hdownRow, if_pos rfl, hrow]
    rfl
  · rw [hheld]
    unfold State.lapseAgent
    exact recordLoss_frame _ a
  · have hsame := ((hrows b).2 hb).sameSession
    exact ⟨hsame.state, hsame.epoch, hsame.port, hsame.period, hsame.countdown, hsame.expired⟩
  · exact ⟨hfront.pointer, hstore.inc, hstore.keyIndex, hstore.freeList, hstore.rights, hstore.groups, hstore.sweep,
      hfront.ports, hfront.engine, hstore.link, hfront.phase, hfront.applyLevels, hfront.uldat, hfront.pending,
      output_lapseAgent_of_unbound s.grantInternal, hstore.channels⟩

end Sys2Proof.Machine
end

section
/-! PROOF. Ownership: CLAIM, RELEASE, REVOKE, CANCEL_CLAIM and RESTORE past their checks (R72 to R87). -/
namespace Sys2Proof.Machine

/-! ### An admitted request by its answer -/

theorem exec_of_answer {k : ReqKind} {p : PortId} {f : List Byte} {a : Agent} {s : State} {A : Answer}
    (h : s.Admits p k f a) (hcarry : carryOf k (requestOf f a p (s.ticksLeft a)) (s.begun p a) = A) :
    exec (requestInstr k p .whole) s = .next (A.st.answered p f A.outcome A.body) := by
  rw [exec_of_admits h, hcarry]

theorem State.Names.handleOf {s : State} {h : Handle} {r : Record} (n : s.Names h r) : s.handleOf h.slot = h := by
  obtain ⟨slot, inc⟩ := h
  exact congrArg (Handle.mk slot) n.1

theorem heldBy_of_held {r : Record} {a : Agent} (h : r.state = .held a) : r.heldBy a = true := by
  rw [Record.heldBy, h, beq_self_eq_true]

/-- Taking the request and renewing the session keep the claim entries (R70). -/
theorem claimsInUse_begun (s : State) (p : PortId) (a : Agent) : (s.begun p a).claimsInUse = s.claimsInUse := by
  simp only [State.claimsInUse, State.record, State.begun_slots]

/-! ### CLAIM (R75 to R77) -/

section
variable {s : State} {q : Request} {h : Handle} {g : Option (BitVec 16)} {r : Record} {a o : Agent}

theorem carryClaim_of_checks (hparse : parseHandle (optWait ||| optGuard) q.options q.body = some (h, g))
    (hnames : s.Names h r) (hright : s.holds q.agent r.cls .claim = true) (hguard : GuardPasses g r) :
    carryClaim q s = claimDecision s h r q.agent (q.options &&& optWait ≠ 0) := by
  simp only [carryClaim, hparse, onHandle_of_names hnames, needRight_of_holds hright, needGuard_of_passes hguard]

theorem wait_bit : ∀ o : Byte, decide (o &&& optWait ≠ 0) = o.getLsbD 1 := by decide

theorem claimDecision_of_free (hfree : r.state = .opened ∨ r.state = .lapsed) (wait : Bool) :
    claimDecision s h r a wait = claimNow s h r a := by
  rcases hfree with hstate | hstate <;> simp only [claimDecision, hstate]

theorem claimDecision_of_owner (hstate : r.state = .held a) (wait : Bool) :
    claimDecision s h r a wait = { st := s, outcome := .alreadyOwner, body := bytes16 r.revision } := by
  simp only [claimDecision, hstate, if_true]

theorem claimDecision_of_owned (hstate : r.state = .held o) (ho : o ≠ a) :
    claimDecision s h r a false = { st := s, outcome := .owned, body := small o } := by
  simp only [claimDecision, hstate, if_neg ho, Bool.not_false, if_true]

/-- A CLAIM that waits on another agent's record: the queue and the pool decide. -/
theorem claimDecision_of_wait (hstate : r.state = .held o) (ho : o ≠ a) : claimDecision s h r a true =
    if r.queue.contains a then { st := s, outcome := .alreadyQueued, body := byteOf (r.position a) :: small o }
    else if 4 ≤ r.queue.length then { st := s, outcome := .queueFull, body := small o }
    else if s.poolFree = 0 then refuse s .claimPoolEmpty
    else
      { st := s.setRecord h.slot (some { r with queue := r.queue ++ [a] })
        outcome := .queued
        body := byteOf (r.queue.length + 1) :: small o ++ bytes16 r.revision } := by
  simp only [claimDecision, hstate, if_neg ho, Bool.not_true, Bool.false_eq_true, if_false, Config.queueCap]

theorem contains_of_not_mem {l : List Agent} (h : a ∉ l) : l.contains a = false := by simpa using h

theorem position_of_split {pre post : List Agent} (hqueue : r.queue = pre ++ a :: post) (hpre : a ∉ pre) :
    r.position a = pre.length + 1 := by
  rw [Record.position, hqueue, List.idxOf_append_of_notMem hpre, List.idxOf_cons_self, Nat.add_zero]

theorem poolFree_eq_zero_iff : s.poolFree = 0 ↔ 64 ≤ s.claimsInUse := Nat.sub_eq_zero_iff_le

end

/-- Settles O50: the cases of `claimDecision`, on the record as the request finds it. -/
theorem claimDecidedByTheTable : Obligations.ClaimDecidedByTheTable := by
  intro s p f a h g r hadm hparse hnames hright hguard wait answers b
  have hcarry : ∀ {A : Answer}, claimDecision b h r a wait = A → answers A.st A.outcome A.body := fun hA => by
    refine exec_of_answer hadm (((carryClaim_of_checks (q := requestOf f a p (s.ticksLeft a)) hparse (hnames.begun p a)
      hright hguard).trans ?_).trans hA)
    exact congrArg (claimDecision b h r a) (wait_bit (frameOptions f))
  refine ⟨fun hfree => hcarry (claimDecision_of_free hfree wait),
    fun howner => hcarry (claimDecision_of_owner howner wait), fun o hstate ho => ?_⟩
  refine ⟨fun hwait => ?_, fun hwait pre post hqueue hpre => ?_, fun hwait hnew hfull => ?_,
    fun hwait hnew hroom hpool => ?_, fun hwait hnew hroom hpool => ?_⟩
  · refine hcarry (A := { st := b, outcome := .owned, body := small o }) ?_
    rw [hwait, claimDecision_of_owned hstate ho]
  · refine hcarry (A := { st := b, outcome := .alreadyQueued, body := [byteOf (pre.length + 1), byteOf o.val] }) ?_
    have hmem : r.queue.contains a = true := by simp [hqueue]
    rw [hwait, claimDecision_of_wait hstate ho, if_pos hmem, position_of_split hqueue hpre]
    rfl
  · refine hcarry (A := { st := b, outcome := .queueFull, body := small o }) ?_
    rw [hwait, claimDecision_of_wait hstate ho, contains_of_not_mem hnew, if_neg Bool.false_ne_true, if_pos hfull]
  · refine hcarry (A := refuse b .claimPoolEmpty) ?_
    have hempty : b.poolFree = 0 := poolFree_eq_zero_iff.2 (by rw [claimsInUse_begun]; exact hpool)
    rw [hwait, claimDecision_of_wait hstate ho, contains_of_not_mem hnew, if_neg Bool.false_ne_true,
      if_neg (not_le.2 hroom), if_pos hempty]
  · refine hcarry (A := {
      st := b.setRecord h.slot (some { r with queue := r.queue ++ [a] })
      outcome := .queued
      body := byteOf (r.queue.length + 1) :: small o ++ bytes16 r.revision }) ?_
    have hfree : b.poolFree ≠ 0 := fun hempty => by
      rw [poolFree_eq_zero_iff, claimsInUse_begun] at hempty
      exact absurd hpool (not_lt.2 hempty)
    rw [hwait, claimDecision_of_wait hstate ho, contains_of_not_mem hnew, if_neg Bool.false_ne_true,
      if_neg (not_le.2 hroom), if_neg hfree]

/-! ### RELEASE and REVOKE (R72, R73, R80, R83, R84) -/

section
variable {s : State} {q : Request} {h : Handle} {g : Option (BitVec 16)} {r : Record} {a w : Agent} {ws : List Agent}

theorem handOver_of_no_waiter (hqueue : r.queue = []) (s : State) (i : SlotNo) (a : Agent) : s.handOver i r a =
    s.setRecord i (some { r with state := .opened, staged := none, revision := r.revision + 1 }) := by
  simp only [State.handOver, Record.passOn, hqueue]

theorem handOver_of_waiter (hqueue : r.queue = w :: ws) (s : State) (i : SlotNo) (a : Agent) : s.handOver i r a =
    let t := s.setRecord i (some { r with
      state := .held w, queue := ws, staged := none, revision := r.revision + 1 })
    if w = a then t else t.condition w .granted (s.handleOf i) r.key := by
  simp only [State.handOver, Record.passOn, hqueue]

theorem carryRelease_of_checks (hparse : parseHandle optGuard q.options q.body = some (h, g)) (hnames : s.Names h r)
    (howner : r.state = .held q.agent) (hguard : GuardPasses g r) : carryRelease q s =
      { st := s.handOver h.slot r q.agent, outcome := .done,
        body := encHandle h ++ bytes16 (r.revision + 1) ++ optional small r.queue.head? } := by
  simp only [carryRelease, hparse, onHandle_of_names hnames, heldBy_of_held howner, needOwner_true,
    needGuard_of_passes hguard]

theorem carryRevoke_of_checks (hparse : parseHandle 0 q.options q.body = some (h, g)) (hnames : s.Names h r) :
    (∀ o, r.state = .held o → carryRevoke q s =
        { st := (s.tellRevoked o h r.key).handOver h.slot r q.agent, outcome := .done,
          body := encHandle h ++ bytes16 (r.revision + 1) ++ small o ++ optional small r.queue.head? })
      ∧ (r.state = .opened → carryRevoke q s = { st := s, outcome := .notHeld, body := [1] })
      ∧ (r.state = .lapsed → carryRevoke q s = { st := s, outcome := .notHeld, body := [3] }) := by
  simp only [carryRevoke, hparse, onHandle_of_names hnames]
  refine ⟨fun o hstate => ?_, fun hstate => ?_, fun hstate => ?_⟩
  · rw [hstate]
  · rw [hstate]; rfl
  · rw [hstate]; rfl

theorem State.Names.tellRevoked (n : s.Names h r) (o : Agent) (hd : Handle) (k : Key) :
    (s.tellRevoked o hd k).Names h r := by
  unfold State.tellRevoked
  split <;> exact n

end

/-- Settles O51: both kinds hand the record over, by the first case of `handOver` or by the second. -/
theorem releaseAndRevokeHandOn : Obligations.ReleaseAndRevokeHandOn := by
  intro s p f a h g r hnames opened granted
  refine ⟨fun hadm hparse howner hguard => ?_, fun hadm hparse => ?_⟩
  · have hcarry := carryRelease_of_checks (q := requestOf f a p (s.ticksLeft a)) hparse (hnames.begun p a) howner hguard
    have hexec := exec_of_answer hadm hcarry
    refine ⟨fun hqueue => hexec.trans ?_, fun w ws hqueue hw => hexec.trans ?_⟩
    · have hhead : r.queue.head? = none := by rw [hqueue]; rfl
      rw [handOver_of_no_waiter hqueue, hhead]
      rfl
    · have hwaiter : w ≠ (requestOf f a p (s.ticksLeft a)).agent := hw
      have hhead : r.queue.head? = some w := by rw [hqueue]; rfl
      simp only [handOver_of_waiter hqueue, if_neg hwaiter, (hnames.begun p a).handleOf, hhead]
      rfl
  · obtain ⟨hheld, hopened, hlapsed⟩ :=
      carryRevoke_of_checks (q := requestOf f 0 p (s.ticksLeft 0)) hparse (hnames.begun p 0)
    refine ⟨fun _ _ o hstate => ?_, fun hstate => exec_of_answer hadm (hopened hstate),
      fun hstate => exec_of_answer hadm (hlapsed hstate)⟩
    have hexec := exec_of_answer hadm (hheld o hstate)
    have htold := (hnames.begun p 0).tellRevoked o h r.key
    refine ⟨fun hqueue => hexec.trans ?_, fun w ws hqueue => hexec.trans ?_⟩
    · have hhead : r.queue.head? = none := by rw [hqueue]; rfl
      rw [handOver_of_no_waiter hqueue, hhead]
      rfl
    · have hhead : r.queue.head? = some w := by rw [hqueue]; rfl
      simp only [handOver_of_waiter hqueue, htold.handleOf, hhead]
      rfl

/-! ### CANCEL_CLAIM and RESTORE (R81, R86) -/

section
variable {s : State} {q : Request} {h : Handle} {g : Option (BitVec 16)} {r : Record}

theorem carryCancelClaim_of_names (hparse : parseHandle 0 q.options q.body = some (h, g)) (hnames : s.Names h r) :
    carryCancelClaim q s = if !r.queue.contains q.agent then refuse s .notQueued
      else
        { st := s.setRecord h.slot (some { r with queue := r.queue.erase q.agent }), outcome := .done,
          body := [byteOf (r.position q.agent), byteOf (r.queue.erase q.agent).length] } := by
  simp only [carryCancelClaim, hparse, onHandle_of_names hnames]

theorem erase_of_split {a : Agent} {pre post : List Agent} (hpre : a ∉ pre) :
    (pre ++ a :: post).erase a = pre ++ post := by
  rw [List.erase_append_right _ hpre, List.erase_cons_head]

theorem carryRestore_of_names (hparse : parseHandle 0 q.options q.body = some (h, g)) (hnames : s.Names h r) :
    (r.state = .lapsed → carryRestore q s =
        { st := s.setRecord h.slot (some { r with
            state := .opened, safePending := false, revision := r.revision + 1 })
          outcome := .done, body := encHandle h ++ bytes16 (r.revision + 1) ++ flag r.safePending })
      ∧ (r.state ≠ .lapsed → carryRestore q s = { st := s, outcome := .notLapsed, body := [r.state.code] }) := by
  simp only [carryRestore, hparse, onHandle_of_names hnames]
  exact ⟨fun hstate => if_pos hstate, fun hstate => if_neg hstate⟩

end

/-- Settles O52: the requester's place in the queue decides the one, the record's state the other. -/
theorem cancelClaimAndRestore : Obligations.CancelClaimAndRestore := by
  intro s p f a h r hparse hnames
  refine ⟨fun hadm => ?_, fun hadm => ?_⟩
  · have hcarry := carryCancelClaim_of_names (q := requestOf f a p (s.ticksLeft a)) hparse (hnames.begun p a)
    refine ⟨fun hnew => exec_of_refused hadm (hcarry.trans ?_), fun pre post hqueue hpre => ?_⟩
    · have hnone : r.queue.contains (requestOf f a p (s.ticksLeft a)).agent = false := contains_of_not_mem hnew
      rw [hnone]
      rfl
    · have hmem : r.queue.contains a = true := by simp [hqueue]
      have herase : r.queue.erase a = pre ++ post := by rw [hqueue, erase_of_split hpre]
      refine exec_of_answer hadm (A := {
        st := (s.begun p a).setRecord h.slot (some { r with queue := pre ++ post })
        outcome := .done
        body := [byteOf (pre.length + 1), byteOf (pre.length + post.length)] }) (hcarry.trans ?_)
      show (if !r.queue.contains a then refuse _ .notQueued else _) = _
      rw [hmem, ← List.length_append, ← position_of_split hqueue hpre, ← herase]
      rfl
  · obtain ⟨hlapsed, hother⟩ :=
      carryRestore_of_names (q := requestOf f 0 p (s.ticksLeft 0)) hparse (hnames.begun p 0)
    refine ⟨fun hstate => exec_of_answer hadm (hlapsed hstate), fun hstate => ?_, fun o hstate => ?_⟩
    · have hcarry := hother (by rw [hstate]; nofun)
      rw [hstate] at hcarry
      exact exec_of_answer hadm hcarry
    · have hcarry := hother (by rw [hstate]; nofun)
      rw [hstate] at hcarry
      exact exec_of_answer hadm hcarry

end Sys2Proof.Machine
end

section
/-! PROOF. Staging and tuning: STAGE, UNSTAGE and TUNE past their checks (R90 to R102). -/
namespace Sys2Proof.Machine

section
variable {s : State} {q : Request} {h : Handle} {g : Option (BitVec 16)} {r : Record} {a : Agent} {v : Value}

/-! ### A live value written within a request (R93, R102) -/

/-- The record written, then its changed live value told: the cases of STAGE and of TUNE. -/
theorem written_then_told (hnames : s.Names h r) (v : Value) (r' : Record) (who : AgentSet) :
    let t := s.setRecord h.slot (some r')
    (r.live = v → t.liveChanged h.slot r v who = t)
      ∧ (r.live ≠ v → r.binding = none → t.liveChanged h.slot r v who = t.conditionAll who .changed h r.key)
      ∧ ∀ c, r.live ≠ v → r.binding = some c →
          t.liveChanged h.slot r v who = (t.notice c .value v).conditionAll who .changed h r.key := by
  intro t
  have hhandle : t.handleOf h.slot = h := (handleOf_setRecord s h.slot h.slot _).trans hnames.handleOf
  refine ⟨fun hsame => liveChanged_of_same hsame t h.slot who, fun hchanged hunbound => ?_, fun c hchanged hbound => ?_⟩
  · rw [liveChanged_of_changed hchanged, hhandle, noticeChange_of_quiet (.inl hunbound)]
  · rw [liveChanged_of_changed hchanged, hhandle, hbound, noticeChange_of_bound hchanged]

/-! ### STAGE and UNSTAGE (R90, R92 to R94, R96) -/

theorem stageableBy_of_passes (howner : r.OwnershipPasses .stage a) : r.stageableBy a = true :=
  qualifies_iff (k := .stage).2 howner

theorem carryStage_of_checks (hparse : parseStage q.options q.body = some (h, v, g)) (hnames : s.Names h r)
    (hright : s.holds q.agent r.cls .stage = true) (howner : r.OwnershipPasses .stage q.agent)
    (hguard : GuardPasses g r) :
    (within v r.min r.max = false → carryStage q s =
        { st := s, outcome := .outOfRange, body := bytes16 r.min ++ bytes16 r.max })
      ∧ (within v r.min r.max = true → carryStage q s = stageAccepted s h r q.agent v) := by
  simp only [carryStage, hparse, onHandle_of_names hnames, needRight_of_holds hright, stageableBy_of_passes howner,
    needOwner_true, needGuard_of_passes hguard]
  exact ⟨fun hout => by rw [hout]; rfl, fun hin => by rw [hin]; rfl⟩

theorem stageAccepted_of_waiting (htrigger : s.triggerOf r.group ≠ .onStage) : stageAccepted s h r a v =
    { st := s.setRecord h.slot (some (r.stageWaiting a v)), outcome := .done,
      body := stageBody h r (r.stageWaiting a v) false } := if_neg htrigger

theorem stageAccepted_of_onStage (htrigger : s.triggerOf r.group = .onStage) : stageAccepted s h r a v =
    { st := (s.setRecord h.slot (some (r.stageNow v))).liveChanged h.slot r v (r.watchers.erase a), outcome := .done,
      body := stageBody h r (r.stageNow v) true } := if_pos htrigger

theorem carryUnstage_of_checks (hparse : parseHandle optGuard q.options q.body = some (h, g)) (hnames : s.Names h r)
    (hright : s.holds q.agent r.cls .stage = true) (howner : r.OwnershipPasses .stage q.agent)
    (hguard : GuardPasses g r) :
    (r.staged = none → carryUnstage q s = { st := s, outcome := .nothingStaged, body := bytes16 r.revision })
      ∧ ∀ v, r.staged = some v → carryUnstage q s =
          { st := s.setRecord h.slot (some { r with staged := none, revision := r.revision + 1 }), outcome := .done,
            body := encHandle h ++ bytes16 (r.revision + 1) ++ bytes16 v } := by
  simp only [carryUnstage, hparse, onHandle_of_names hnames, needRight_of_holds hright, stageableBy_of_passes howner,
    needOwner_true, needGuard_of_passes hguard]
  exact ⟨fun hnone => by rw [hnone], fun v hv => by rw [hv]⟩

end

/-- Settles O53: the limits, then the trigger of the record's group, then the change of the live value. -/
theorem stageAndUnstage : Obligations.StageAndUnstage := by
  intro s p f a h g r hnames hright howner hguard b
  refine ⟨fun v hadm hparse => ?_, fun hadm hparse => ?_⟩
  · obtain ⟨hout, hin⟩ := carryStage_of_checks (q := requestOf f a p (s.ticksLeft a)) hparse (hnames.begun p a) hright
      howner hguard
    refine ⟨fun hvalue => exec_of_answer hadm (hout (within_eq_false_iff.2 hvalue)), fun hlow hhigh htrigger => ?_,
      fun hlow hhigh htrigger => ?_⟩
    · exact exec_of_answer hadm ((hin (within_iff.2 ⟨hlow, hhigh⟩)).trans (stageAccepted_of_waiting htrigger))
    · intro b1 body
      have hexec := exec_of_answer hadm
        ((hin (within_iff.2 ⟨hlow, hhigh⟩)).trans (stageAccepted_of_onStage htrigger))
      obtain ⟨hsame, hunbound, hbound⟩ :=
        written_then_told (hnames.begun p a) v (r.stageNow v) (r.watchers.erase a)
      refine ⟨fun hlive => hexec.trans ?_, fun hlive hbinding => hexec.trans ?_, fun c hlive hbinding => hexec.trans ?_⟩
      · exact congrArg (fun t => Host.Outcome.next (State.answered t p f .done body)) (hsame hlive)
      · exact congrArg (fun t => Host.Outcome.next (State.answered t p f .done body)) (hunbound hlive hbinding)
      · exact congrArg (fun t => Host.Outcome.next (State.answered t p f .done body)) (hbound c hlive hbinding)
  · obtain ⟨hnone, hsome⟩ := carryUnstage_of_checks (q := requestOf f a p (s.ticksLeft a)) hparse (hnames.begun p a)
      hright howner hguard
    exact ⟨fun hstaged => exec_of_answer hadm (hnone hstaged), fun v hv => exec_of_answer hadm (hsome v hv)⟩

/-! ### TUNE (R99, R101, R102) -/

section
variable {s : State} {q : TuneFields} {r : Record} {a : Agent} {v : Value}

theorem tuned_eq (r : Record) (q : TuneFields) : r.tuned q = { r with
    min := (q.limits.map (·.1)).getD r.min
    max := (q.limits.map (·.2)).getD r.max
    safe := q.safe.getD r.safe
    policy := q.policy.getD r.policy
    group := q.group.getD r.group
    revision := r.revision + 1 } := by
  rw [← Record.tuned_min, ← Record.tuned_max]
  rfl

/-- A TUNE applies nothing when it does not move the record into an ON_STAGE group, or no value waits. -/
theorem tuneAccepted_of_no_work (hquiet : ¬ ((r.tuned q).group ≠ r.group ∧ s.triggerOf (r.tuned q).group = .onStage)
      ∨ (r.staged = none ∧ r.safePending = false)) :
    tuneAccepted s r a q =
      { st := s.setRecord q.handle.slot (some (r.tuned q)), outcome := .done,
        body := tuneBody q.handle (r.tuned q) false } := by
  have hwork : s.tuneWork r q = none := by
    rcases hquiet with hstays | ⟨hstaged, hpending⟩
    · exact if_neg hstays
    · have hidle : (r.tuned q).applyWork = none := by
        simp [Record.applyWork, Record.tuned, hstaged, hpending]
      rw [State.tuneWork, hidle, ite_self]
  simp only [tuneAccepted, hwork]

theorem tuneAccepted_of_work (hmoved : (r.tuned q).group ≠ r.group ∧ s.triggerOf (r.tuned q).group = .onStage)
    (happlies : (r.tuned q).Applies v) : tuneAccepted s r a q =
      let r' : Record := { r.tuned q with live := v, staged := none, safePending := false }
      { st := (s.setRecord q.handle.slot (some r')).liveChanged q.handle.slot r v (r.watchers.erase a), outcome := .done,
        body := tuneBody q.handle r' true } := by
  have hwork : s.tuneWork r q = some { r.tuned q with live := v, staged := none, safePending := false } :=
    (if_pos hmoved).trans (applyWork_of_applies happlies)
  simp only [tuneAccepted, hwork]

end

/-- Settles O55: the record written is `Record.tuned`, or what the application makes of it. -/
theorem tuneWritesAndApplies : Obligations.TuneWritesAndApplies := by
  intro s p f a q r hadm hparse hnames hright howner hguard r1 body b moved hlaw
  have hr1 : r.tuned q = r1 := tuned_eq r q
  have haccepted : carryTune (requestOf f a p (s.ticksLeft a)) b = tuneAccepted b r a q :=
    (carryTune_of_checks (q := requestOf f a p (s.ticksLeft a)) hparse (hnames.begun p a) hright howner hguard).2
      (limitConflict_none_iff.2 (hr1 ▸ hlaw))
  refine ⟨fun hquiet => ?_, fun v hmoved happlies => ?_⟩
  · have hnone := tuneAccepted_of_no_work (s := b) (q := q) (a := a) (r := r) (by rw [hr1]; exact hquiet)
    rw [hr1] at hnone
    exact exec_of_answer hadm (haccepted.trans hnone)
  · intro r2 b1
    have hvalue : (r.tuned q).Applies v := by
      rw [hr1]
      exact happlies.imp_right fun ⟨hstaged, hpending, hv⟩ => ⟨hstaged, hpending, hv.symm⟩
    have hwork := tuneAccepted_of_work (s := b) (a := a) (by rw [hr1]; exact hmoved) hvalue
    rw [hr1] at hwork
    have hexec := exec_of_answer hadm (haccepted.trans hwork)
    obtain ⟨hsame, hunbound, hbound⟩ := written_then_told (hnames.begun p a) v r2 (r.watchers.erase a)
    refine ⟨fun hlive => hexec.trans ?_, fun hlive hbinding => hexec.trans ?_, fun c hlive hbinding => hexec.trans ?_⟩
    · exact congrArg (fun t => Host.Outcome.next (State.answered t p f .done (body r2 true))) (hsame hlive)
    · exact congrArg (fun t => Host.Outcome.next (State.answered t p f .done (body r2 true))) (hunbound hlive hbinding)
    · exact congrArg (fun t => Host.Outcome.next (State.answered t p f .done (body r2 true))) (hbound c hlive hbinding)

end Sys2Proof.Machine
end

section
/-! PROOF. The directory: CREATE, RETIRE, READ, LOOKUP and ENUMERATE past their checks (R11 to R26). -/
namespace Sys2Proof.Machine

/-! ### CREATE (R11, R12, R16) -/

section
variable {s : State} {q : Request} {f : CreateFields}

/-- With the key free, a slot free and the values within the limits, the head slot is filled. -/
theorem carryCreate_of_room (hparse : parseCreate q.options q.body = some f)
    (hright : s.holds q.agent f.cls .create = true) (hkey : ∀ e ∈ s.keyIndex, e.1 ≠ f.key) {i : SlotNo}
    {rest : List SlotNo} (hfree : s.freeList = i :: rest) (hlive : within f.live f.min f.max = true)
    (hsafe : within f.safe f.min f.max = true) : carryCreate q s =
      { st := s.placeRecord i rest (newRecord q.agent f), outcome := .done,
        body := encHandle { slot := i, inc := (s.slots.get i).inc + 1 } } := by
  simp [carryCreate, hparse, needRight_of_holds hright, findKey_none.2 hkey, hfree, hlive, hsafe]

end

/-- Settles O46: the slot is filled by `placeRecord`, and the key enters the index by `insertKey`. -/
theorem createFillsTheHeadSlot : Obligations.CreateFillsTheHeadSlot := by
  intro s p f a q i rest hadm hparse hright hkey hfree hlow hhigh hsafeLow hsafeHigh r
  refine ⟨insertKey q.key i s.keyIndex, exec_of_answer hadm (carryCreate_of_room (s := s.begun p a)
    (q := requestOf f a p (s.ticksLeft a)) hparse hright hkey hfree (within_iff.2 ⟨hlow, hhigh⟩)
    (within_iff.2 ⟨hsafeLow, hsafeHigh⟩)), fun e => mem_insertKey q.key i s.keyIndex e,
    fun hsorted => pairwise_insertKey q.key i s.keyIndex hsorted hkey⟩

/-! ### RETIRE (R18 to R21) -/

section
variable {s : State} {q : Request} {h : Handle} {g : Option (BitVec 16)} {r : Record}

theorem carryRetire_of_checks (hparse : parseHandle optGuard q.options q.body = some (h, g)) (hnames : s.Names h r)
    (hright : s.holds q.agent r.cls .retire = true) (howner : q.agent = 0 ∨ r.state = .held q.agent)
    (hguard : GuardPasses g r) : carryRetire q s =
      if q.agent ≠ 0 ∧ r.binding.isSome then refuse s .bound
      else
        { st := (s.conditionAll (r.retireTold q.agent) .retired h r.key).dismantle h.slot r, outcome := .done,
          body := encHandle h ++ bytes16 r.revision ++ optional small r.binding } := by
  have hcheck7 : (q.agent == 0 || r.heldBy q.agent) = true := by
    simpa [Record.heldBy] using howner
  simp only [carryRetire, hparse, onHandle_of_names hnames, needRight_of_holds hright, hcheck7, needOwner_true,
    needGuard_of_passes hguard]

theorem mem_retireTold {a b : Agent} : (r.retireTold a).mem b = true ↔
    b ≠ a ∧ (b ∈ r.queue ∨ r.watchers.mem b = true ∨ r.state = .held b) := by
  simp only [Record.retireTold, FinSet.mem, Tab.get_ofFn, Record.heldBy, Bool.and_eq_true, Bool.or_eq_true, bne_iff_ne,
    beq_iff_eq, List.contains_iff_mem, or_assoc]
  exact and_comm

end

/-- Settles O48: the binding decides the refusal, and `dismantle` what is left of the record. -/
theorem retireDismantlesTheRecord : Obligations.RetireDismantlesTheRecord := by
  intro s p f a h g r hadm hparse hnames hright howner hguard
  have hcarry := carryRetire_of_checks (q := requestOf f a p (s.ticksLeft a)) hparse (hnames.begun p a) hright howner
    hguard
  refine ⟨fun ha hbound => exec_of_refused hadm (hcarry.trans ?_), fun hfree => ⟨r.retireTold a,
    fun b => mem_retireTold, ?_⟩⟩
  · exact if_pos ⟨ha, Option.isSome_iff_ne_none.2 hbound⟩
  · intro s1 s2 hunbound hbound
    have hs2 : s2 = s1.parkBound r.binding := by
      cases hbinding : r.binding with
      | none => exact hunbound hbinding
      | some c => exact hbound c hbinding
    have hpasses : ¬ (a ≠ 0 ∧ r.binding.isSome = true) := fun ⟨ha, hsome⟩ => by
      rcases hfree with h0 | hnone
      · exact ha h0
      · rw [hnone] at hsome
        cases hsome
    have hexec := exec_of_answer hadm (hcarry.trans (if_neg hpasses))
    rw [hs2]
    exact hexec

/-! ### READ and LOOKUP (R22 to R24) -/

section
variable {s : State} {q : Request} {h : Handle} {g : Option (BitVec 16)} {r : Record}

theorem carryRead_of_checks (hparse : parseHandle 0 q.options q.body = some (h, g)) (hnames : s.Names h r)
    (hright : s.holds q.agent r.cls .read = true) :
    carryRead q s = { st := s, outcome := .done, body := fullReport h r } := by
  simp only [carryRead, hparse, onHandle_of_names hnames, needRight_of_holds hright]

/-- Under the law of the store the index finds the record of a key. -/
theorem findKey_of_record (hlaw : s.StoreLaw) {i : SlotNo} (hrec : s.record i = some r) :
    findKey r.key s.keyIndex = some i := by
  have hindexed : (r.key, i) ∈ s.keyIndex := (hlaw.2.1 r.key i).2 ⟨r, hrec, rfl⟩
  cases hfind : findKey r.key s.keyIndex with
  | none => exact absurd rfl (findKey_none.1 hfind _ hindexed)
  | some j =>
    have hj : s.keyAt j = some r.key := keyAt_eq_some.2 ((hlaw.2.1 r.key j).1 (findKey_some hfind))
    rw [hlaw.slot_of_key hj (keyAt_eq_some.2 ⟨r, hrec, rfl⟩)]

theorem carryLookup_of_record (hlaw : s.StoreLaw) {i : SlotNo} (hrec : s.record i = some r)
    (hparse : parseKey q.options q.body = some r.key) : carryLookup q s =
      needRight s q.agent r.cls .read { st := s, outcome := .done, body := fullReport (s.handleOf i) r } := by
  simp only [carryLookup, hparse, findKey_of_record hlaw hrec, hrec]

theorem carryLookup_of_no_record (hlaw : s.StoreLaw) {k : Key} (hnone : ∀ i r, s.record i = some r → r.key ≠ k)
    (hparse : parseKey q.options q.body = some k) : carryLookup q s = refuse s .notFound := by
  have hfind : findKey k s.keyIndex = none := findKey_none.2 fun e he hkey => by
    obtain ⟨r, hrec, hr⟩ := (hlaw.2.1 e.1 e.2).1 he
    exact hnone e.2 r hrec (hr.trans hkey)
  simp only [carryLookup, hparse, hfind]

theorem needRight_of_not_holds {a : Agent} {c : ClassNo} {x : Right} (h : s.holds a c x = false) (A : Answer) :
    needRight s a c x A = refuse s .noRight := by
  rw [needRight, h, if_neg Bool.false_ne_true]

theorem fullReport_eq (h : Handle) (r : Record) : fullReport h r =
    [byteOf h.slot.val, h.inc] ++ bytes16 r.key ++ [byteOf r.cls.val, byteOf r.group.val, r.state.code]
      ++ optional small r.state.owner ++ bytes16 r.min ++ bytes16 r.max ++ bytes16 r.live
      ++ optional bytes16 r.staged ++ bytes16 r.safe ++ [r.policy.code] ++ flag r.safePending ++ bytes16 r.revision
      ++ optional small r.binding ++ [byteOf r.queue.length] ++ r.queue.map (fun b => byteOf b.val)
      ++ [r.watchers.toByte] := by
  have hqueue : r.queue.flatMap small = r.queue.map fun b => byteOf b.val := List.flatMap_pure_eq_map _ _
  simp only [fullReport, encHandle, small, ← hqueue, List.append_assoc, List.cons_append, List.nil_append]

/-! ### ENUMERATE (R25, R26) -/

theorem carryEnumerate_of_parse {k : Key} (hparse : parseAfterKey q.options q.body = some k) : carryEnumerate q s =
    { st := s, outcome := .done,
      body := byteOf ((s.readableAfter q.agent k).take 6).length
        :: (((s.readableAfter q.agent k).take 6).flatMap fun e => briefReport e.1 e.2)
          ++ flag (decide (6 < (s.readableAfter q.agent k).length)) } := by
  simp only [carryEnumerate, hparse]
  rfl

/-- The index is ascending, and so is what ENUMERATE finds. -/
theorem pairwise_readableAfter (hlaw : s.StoreLaw) (a : Agent) (k : Key) :
    (s.readableAfter a k).Pairwise fun e g => e.2.key.toNat < g.2.key.toNat := by
  have hkey : ∀ e ∈ s.keyIndex, ∀ x, (if k.toNat < e.1.toNat then
      match s.record e.2 with
      | some r => if s.holds a r.cls .read then some (s.handleOf e.2, r) else none
      | none => none
    else none) = some x → x.2.key = e.1 := by
    intro e he x hx
    obtain ⟨r, hrec, hr⟩ := (hlaw.2.1 e.1 e.2).1 he
    rw [hrec] at hx
    dsimp only at hx
    split_ifs at hx
    cases hx
    exact hr
  unfold State.readableAfter
  rw [List.pairwise_filterMap]
  refine hlaw.1.imp_of_mem fun {e d} he hd hlt x hx y hy => ?_
  rw [hkey e he x hx, hkey d hd y hy]
  exact hlt

theorem mem_readableAfter_iff (hlaw : s.StoreLaw) {a : Agent} {k : Key} : (h, r) ∈ s.readableAfter a k ↔
    s.Names h r ∧ k.toNat < r.key.toNat ∧ s.holds a r.cls .read = true := by
  rw [State.mem_readableAfter]
  constructor
  · rintro ⟨key, i, hindexed, hafter, hrec, hholds, rfl⟩
    obtain ⟨x, hx, rfl⟩ := (hlaw.2.1 key i).1 hindexed
    rw [hrec] at hx
    cases hx
    exact ⟨⟨rfl, hrec⟩, hafter, hholds⟩
  · rintro ⟨hnames, hafter, hholds⟩
    exact ⟨r.key, h.slot, (hlaw.2.1 _ _).2 ⟨r, hnames.2, rfl⟩, hafter, hnames.2, hholds, hnames.handleOf⟩

end

/-- Taking the request and renewing the session keep the law of the store. -/
theorem State.StoreLaw.begun {s : State} (h : s.StoreLaw) (p : PortId) (a : Agent) : (s.begun p a).StoreLaw := h

/-- Settles O49: each kind reads the renewed state, whose directory is the one before. -/
theorem readsReportTheDirectory : Obligations.ReadsReportTheDirectory := by
  intro s p f a report brief
  refine ⟨fun h r hadm hparse hnames hright => ?_, fun k hadm hparse hlaw => ⟨fun i r hrec hkey => ?_, fun hnone => ?_⟩,
    fun k hadm hparse hlaw => ⟨s.readableAfter a k, pairwise_readableAfter hlaw a k, fun h r => mem_readableAfter_iff hlaw,
      ?_⟩⟩
  · have hcarry := carryRead_of_checks (q := requestOf f a p (s.ticksLeft a)) hparse (hnames.begun p a) hright
    rw [fullReport_eq] at hcarry
    exact exec_of_answer hadm hcarry
  · subst hkey
    have hcarry := carryLookup_of_record (s := s.begun p a) (q := requestOf f a p (s.ticksLeft a)) hlaw hrec hparse
    rw [fullReport_eq] at hcarry
    refine ⟨fun hright => ?_, fun hnot => ?_⟩
    · exact exec_of_answer hadm (hcarry.trans (needRight_of_holds (s := s.begun p a) hright _))
    · exact exec_of_refused hadm (hcarry.trans (needRight_of_not_holds (s := s.begun p a) hnot _))
  · exact exec_of_refused hadm (carryLookup_of_no_record (s := s.begun p a) hlaw hnone hparse)
  · exact exec_of_answer hadm (carryEnumerate_of_parse hparse)

end Sys2Proof.Machine
end

section
/-! PROOF. The update queue and the link (R141 to R153), rights (R33), groups (R111 to R116), watches (R126 to R135) and
the queries (R58, R65, R146). -/
namespace Sys2Proof.Machine

/-! ### The update queue (R141, R147) -/

theorem enqueue_of_waiting {pre post : List Update} {u v : Update} (hv : v.channel = u.channel)
    (hpre : ∀ d ∈ pre, d.channel ≠ u.channel) : enqueue u (pre ++ v :: post) = pre ++ u :: post := by
  induction pre with
  | nil => exact if_pos hv
  | cons d pre ih =>
    rw [List.cons_append, enqueue, if_neg (hpre d List.mem_cons_self),
      ih fun e he => hpre e (List.mem_cons_of_mem d he), List.cons_append]

theorem enqueue_of_new {l : List Update} {u : Update} (hnew : ∀ d ∈ l, d.channel ≠ u.channel) :
    enqueue u l = l ++ [u] := by
  induction l with
  | nil => rfl
  | cons d l ih =>
    rw [enqueue, if_neg (hnew d List.mem_cons_self), ih fun e he => hnew e (List.mem_cons_of_mem d he), List.cons_append]

/-- Settles O35: the notice is one `enqueue`, and the queue holds each of the 32 channels once at most. -/
theorem noticeEntersTheQueue : Obligations.NoticeEntersTheQueue := by
  intro s c k v
  refine ⟨fun pre u post hqueue hu hpre => ?_, fun hnew => enqueue_of_new hnew, ?_, fun d hd => ?_, rfl, fun hnodup => ⟨?_, ?_⟩⟩
  · show enqueue { channel := c, kind := k, value := v } s.updateQueue = _
    rw [hqueue]
    exact enqueue_of_waiting hu hpre
  · rw [channel_notice, if_pos rfl]
  · rw [channel_notice, if_neg (Ne.symm hd)]
  · have hcard := hnodup.length_le_card
    rwa [List.length_map, Fintype.card_fin] at hcard
  · exact enqueue_nodup _ _ hnodup

/-! ### The life of a frame (R149 to R153) -/

theorem exec_takeIntoFlight_of_idle {s : State} {u : Update} {us : List Update} (hready : s.phase = .ready)
    (hlink : s.link = .idle) (hqueue : s.updateQueue = u :: us) :
    exec .takeIntoFlight s = .next { s with link := .sending u 1, updateQueue := us } := by
  have harm : exec .takeIntoFlight s = .next (takeHead s) := rfl
  rw [harm]
  simp only [takeHead, if_pos hready, hlink, hqueue]

theorem exec_acknowledgeTimerExpiry (s : State) : exec .acknowledgeTimerExpiry s = .next s.expireLink := rfl

/-- Settles O37: what `takeHead`, `acknowledged` and `expireLink` write in each condition of the link. -/
theorem frameTakenAcknowledgedRetried : Obligations.FrameTakenAcknowledgedRetried := by
  intro s
  refine ⟨fun u us hready hlink hqueue => exec_takeIntoFlight_of_idle hready hlink hqueue, fun f n m hlink => ?_,
    fun f n hlink hn => ?_, fun f n hlink hn => ?_⟩
  · rw [exec_acknowledge, acknowledged_of_awaitAck hlink]
    rfl
  · rw [exec_acknowledgeTimerExpiry, expireLink_of_attempt_left hlink hn]
  · rw [exec_acknowledgeTimerExpiry, expireLink_of_last_attempt hlink (not_lt.2 hn)]

theorem carryLinkResume_of_parse {s : State} {q : Request} (hparse : parseNone q.options q.body = some ()) :
    carryLinkResume q s = match s.link with
      | .stalled u =>
        { st := { s with link := .sending u 1 }, outcome := .done,
          body := small u.channel ++ [u.kind.code] ++ bytes16 u.value ++ [byteOf s.updateQueue.length] }
      | l => { st := s, outcome := .notStalled, body := [l.code] } := by
  simp only [carryLinkResume, hparse]
  cases s.link <;> rfl

theorem updKind_code (k : UpdKind) : k.code = if k = .parked then 1 else 0 := by
  cases k <;> rfl

/-- Settles O60: the frame is resent from STALLED alone. -/
theorem linkResumeRestartsTheFrame : Obligations.LinkResumeRestartsTheFrame := by
  intro s p f hadm ho hbody
  have hexec := exec_of_answer hadm (carryLinkResume_of_parse (s := s.begun p 0) (q := requestOf f 0 p (s.ticksLeft 0))
    (parseNone_nil ho hbody))
  have hlink : (s.begun p 0).link = s.link := rfl
  rw [hlink] at hexec
  refine ⟨fun u h => ?_, fun h => ?_, fun u n h => ?_, fun u n m h => ?_⟩
  · rw [h] at hexec
    rw [← updKind_code]
    exact hexec
  all_goals
    rw [h] at hexec
    exact hexec

/-! ### SET_RIGHTS (R33) -/

theorem agent_of_parseSetRights {o : Byte} {body : List Byte} {b : Agent} {c : ClassNo} {x : RightSet}
    (h : parseSetRights o body = some (b, c, x)) : b ≠ 0 := by
  unfold parseSetRights at h
  split at h
  · split at h
    · split_ifs at h with hzero
      cases h
      exact fun hb => hzero (.inl hb)
    · cases h
  · cases h

theorem rightsOf_setRightsOf {s : State} {b : Agent} (hb : b ≠ 0) (c : ClassNo) (x : RightSet) (d : Agent) (e : ClassNo) :
    (s.setRightsOf b c x).rightsOf d e = if d = b ∧ e = c then x else s.rightsOf d e := by
  have hval : b.val ≠ 0 := fun h => hb (Fin.ext h)
  unfold State.setRightsOf
  rw [dif_neg hval]
  unfold State.rightsOf
  by_cases hd : d.val = 0
  · have hne : ¬ (d = b ∧ e = c) := fun h => hval (h.1 ▸ hd)
    rw [dif_pos hd, dif_pos hd, if_neg hne]
  · rw [dif_neg hd, dif_neg hd]
    by_cases hdb : d = b
    · subst hdb
      rw [Tab.get_set_self, Tab.get_set]
      by_cases hec : e = c
      · rw [if_pos hec.symm, if_pos ⟨rfl, hec⟩]
      · rw [if_neg (Ne.symm hec), if_neg fun h => hec h.2]
    · have hrow : (⟨b.val - 1, by omega⟩ : Fin 7) ≠ ⟨d.val - 1, by omega⟩ := fun h => hdb <| Fin.ext <| by
        have := Fin.mk.inj_iff.1 h
        omega
      rw [Tab.get_set_ne _ _ hrow, if_neg fun h => hdb h.1]

/-- Settles O45: `setRightsOf` replaces the one set. -/
theorem setRightsReplacesOneSet : Obligations.SetRightsReplacesOneSet := by
  intro s p f b c x hadm hparse
  refine ⟨(s.begun p 0).setRightsOf b c x, ?_, setRightsOf_frame _ b c x,
    rightsOf_setRightsOf (s := s.begun p 0) (agent_of_parseSetRights hparse) c x⟩
  have hcarry : carrySetRights (requestOf f 0 p (s.ticksLeft 0)) (s.begun p 0) =
      { st := (s.begun p 0).setRightsOf b c x, outcome := .done,
        body := small b ++ small c ++ [x.toByte, ((s.begun p 0).rightsOf b c).toByte] } := by
    simp only [carrySetRights, requestOf, hparse]
  exact exec_of_answer hadm hcarry

/-! ### APPLY and SET_GROUP (R111 to R114) -/

section
variable {s : State} {q : Request} {gs : GroupSet} {a : Agent}

theorem mayApply_iff : s.mayApply a gs = true ↔ a = 0 ∨ ∀ g, gs.mem g = true → (s.group g).applyAgents.mem a = true := by
  rw [State.mayApply, Bool.or_eq_true, beq_iff_eq]
  simp [allGroups, imp_iff_not_or]

theorem carryApply_of_parse (hparse : parseGroupSet q.options q.body = some gs) :
    (s.mayApply q.agent gs = false → carryApply q s = refuse s .noRight)
      ∧ (∀ g, s.mayApply q.agent gs = true → q.agent ≠ 0 → s.wrongTrigger gs = some g → carryApply q s =
          { st := s, outcome := .wrongTrigger, body := small g ++ [(s.triggerOf g).code] })
      ∧ (s.mayApply q.agent gs = true → q.agent = 0 ∨ s.wrongTrigger gs = none → carryApply q s =
          { st := s.raiseAll gs, outcome := .done, body := [(s.alreadyPending gs).toByte] }) := by
  simp only [carryApply, hparse]
  refine ⟨fun hnot => by rw [hnot]; rfl, fun g hmay ha hwrong => ?_, fun hmay hnone => ?_⟩
  · simp only [hmay, Bool.not_true, Bool.false_eq_true, if_false, if_neg ha, hwrong]
  · have hpick : (if q.agent = 0 then none else s.wrongTrigger gs) = none := by
      rcases hnone with h0 | hnone
      · exact if_pos h0
      · rw [hnone, ite_self]
    simp only [hmay, Bool.not_true, Bool.false_eq_true, if_false, hpick]

theorem group_raiseAll (s : State) (gs : GroupSet) (g : GroupNo) :
    (s.raiseAll gs).group g = { (s.group g) with pending := (s.group g).pending || gs.mem g } := by
  have hget : (s.raiseAll gs).group g = if gs.mem g then (s.group g).raise else s.group g := Tab.get_mapFin _ s.groups g
  rw [hget]
  cases gs.mem g
  · rw [Bool.or_false]
    rfl
  · rw [Bool.or_true]
    rfl

theorem mem_alreadyPending (s : State) (gs : GroupSet) (g : GroupNo) :
    (s.alreadyPending gs).mem g = ((s.group g).pending && gs.mem g) := by
  rw [State.alreadyPending, FinSet.mem, Tab.get_ofFn, Bool.and_comm]

end

/-- Settles O56: APPLY tests the apply-agent sets, then the triggers; SET_GROUP tests nothing. -/
theorem applyAndSetGroup : Obligations.ApplyAndSetGroup := by
  intro s p f a
  refine ⟨fun gs hadm hparse => ?_, fun q hadm hparse => ?_⟩
  · obtain ⟨hrefused, hwrong, hdone⟩ :=
      carryApply_of_parse (s := s.begun p a) (q := requestOf f a p (s.ticksLeft a)) hparse
    refine ⟨fun ⟨ha, g, hg, hnot⟩ => exec_of_refused hadm (hrefused (Bool.eq_false_iff.2 fun hmay => ?_)),
      fun g ha hmember hg htrigger hlowest => ?_, fun hfree => ?_⟩
    · rcases mayApply_iff.1 hmay with h0 | hall
      · exact ha h0
      · exact Bool.false_ne_true (hnot.symm.trans (hall g hg))
    · refine exec_of_answer hadm (hwrong g (mayApply_iff.2 (.inr hmember)) ha (find_lowest _ g ?_ fun d hd => ?_))
      · have hnot : ((s.begun p a).triggerOf g != .command) = true := bne_iff_ne.2 htrigger
        rw [hg, hnot, Bool.and_true]
      · by_cases hmem : gs.mem d = true
        · have hcommand : (s.begun p a).triggerOf d = .command := hlowest d hd hmem
          rw [hcommand, bne_self_eq_false, Bool.and_false]
        · rw [Bool.eq_false_iff.2 hmem, Bool.false_and]
    · refine ⟨(s.begun p a).raiseAll gs, (s.begun p a).alreadyPending gs, exec_of_answer hadm (hdone ?_ ?_), rfl,
        fun g => ⟨group_raiseAll _ gs g, mem_alreadyPending _ gs g⟩⟩
      · exact mayApply_iff.2 (hfree.imp_right fun hall g hg => (hall g hg).1)
      · refine hfree.imp_right fun hall => find_none _ fun g => ?_
        by_cases hg : gs.mem g = true
        · have hcommand : (s.begun p a).triggerOf g = .command := (hall g hg).2
          rw [hcommand, bne_self_eq_false, Bool.and_false]
        · rw [Bool.eq_false_iff.2 hg, Bool.false_and]
  · intro old now
    have hcarry : carrySetGroup (requestOf f 0 p (s.ticksLeft 0)) (s.begun p 0) =
        { st := (s.begun p 0).setGroup q.group (old.configure q), outcome := .done,
          body := [old.trigger.code] ++ small old.strobe ++ bytesOf16 old.period ++ [old.applyAgents.toByte]
            ++ flag (old.configure q).pending } := by
      simp only [carrySetGroup, requestOf, hparse]
      rfl
    exact exec_of_answer hadm hcarry

/-! ### WATCH, UNWATCH and FETCH_ATTENTION (R126, R127, R134, R135) -/

/-- Settles O57: the set is the record's, and the test of UNWATCH is membership. -/
theorem watchAndUnwatch : Obligations.WatchAndUnwatch := by
  intro s p f a h r hparse hnames
  refine ⟨fun hadm hright => ?_, fun hadm => ⟨fun hnot => ?_, fun hmem => ?_⟩⟩
  · have hcarry : carryWatch (requestOf f a p (s.ticksLeft a)) (s.begun p a) =
        { st := (s.begun p a).setRecord h.slot (some { r with watchers := r.watchers.insert a }), outcome := .done,
          body := encHandle h ++ [r.state.code] ++ bytes16 r.live ++ bytes16 r.revision ++ flag (r.watchers.mem a) } := by
      simp only [carryWatch, requestOf, hparse, onHandle_of_names (hnames.begun p a)]
      exact needRight_of_holds (s := s.begun p a) hright _
    exact exec_of_answer hadm hcarry
  · refine exec_of_refused hadm ?_
    simp only [carryOf, carryUnwatch, requestOf, hparse, onHandle_of_names (hnames.begun p a), hnot, Bool.not_false,
      if_true]
  · have hcarry : carryUnwatch (requestOf f a p (s.ticksLeft a)) (s.begun p a) =
        { st := (s.begun p a).setRecord h.slot (some { r with watchers := r.watchers.erase a }), outcome := .done,
          body := encHandle h } := by
      simp only [carryUnwatch, requestOf, hparse, onHandle_of_names (hnames.begun p a), hmem, Bool.not_true,
        Bool.false_eq_true, if_false]
    exact exec_of_answer hadm hcarry

theorem carryFetchAttention_of_parse {s : State} {q : Request} (hparse : parseNone q.options q.body = some ()) :
    let row := s.row q.agent
    carryFetchAttention q s =
      { st := s.fetched q.agent, outcome := .done,
        body := [flagsByte row.overflow (q.agent == 0 && s.linkStalled), if q.agent = 0 then s.lostAgents.toByte else 0]
          ++ ([byteOf (min 8 row.attention.length)] ++ ((row.attention.take 8).map encEntry).flatten
            ++ [byteOf (row.attention.length - 8)]) } := by
  have hleft : (s.row q.agent).attention.length - min 8 (s.row q.agent).attention.length
      = (s.row q.agent).attention.length - 8 := by omega
  simp only [carryFetchAttention, hparse, Config.fetchMax, List.length_take, hleft, List.flatMap_def]
  rfl

theorem flagsByte_eq_or (o l : Bool) : flagsByte o l = (if o then 1 else 0) ||| (if l then 2 else 0) := by
  cases o <;> cases l <;> rfl

/-- Settles O58: `fetched` clears agent 0's own flags for agent 0 alone. -/
theorem fetchTakesTheHeadOfTheList : Obligations.FetchTakesTheHeadOfTheList := by
  intro s p f a hadm ho hbody row entries tail t
  have hcarry := carryFetchAttention_of_parse (s := s.begun p a) (q := requestOf f a p (s.ticksLeft a))
    (parseNone_nil ho hbody)
  have hexec := exec_of_answer hadm hcarry
  refine ⟨fun ha => hexec.trans ?_, fun ha => hexec.trans ?_⟩
  · have hstate : (s.begun p a).fetched a = t := if_neg ha
    have hzero : (a == 0) = false := beq_false_of_ne ha
    have hflags : flagsByte row.overflow false = if row.overflow then 1 else 0 := by cases row.overflow <;> rfl
    show Host.Outcome.next (State.answered ((s.begun p a).fetched a) p f .done
      ([flagsByte row.overflow (a == 0 && _), if a = 0 then _ else 0] ++ tail)) = _
    rw [hstate, hzero, if_neg ha, Bool.false_and, hflags]
  · subst ha
    have hstate : (s.begun p 0).fetched 0 = { t with linkStalled := false, lostAgents := FinSet.empty 8 } := by
      show State.clearSupervisor t 0 = _
      exact if_pos rfl
    show Host.Outcome.next (State.answered ((s.begun p 0).fetched 0) p f .done
      ([flagsByte row.overflow s.linkStalled, s.lostAgents.toByte] ++ tail)) = _
    rw [hstate, flagsByte_eq_or]

/-! ### BIND, UNBIND and SET_PARK (R142 to R145) -/

/-- Settles O59: each kind by the channel's binding, and BIND by the record's after it. -/
theorem bindUnbindSetPark : Obligations.BindUnbindSetPark := by
  intro s p f c b ch
  refine ⟨fun h r hadm hparse hnames => ⟨fun j hj => ?_, fun hnone d hd => ?_, fun hnone hfree => ?_⟩,
    fun hadm hparse => ⟨fun hnone => ?_, fun i r hi hrec => ?_⟩, fun v hadm hparse => ⟨fun hbound => ?_, fun hnone => ?_⟩⟩
  · have hbinding : (b.channel c).binding = some j := hj
    have hcarry : carryBind (requestOf f 0 p (s.ticksLeft 0)) b =
        { st := b, outcome := .channelBusy, body := encHandle (b.handleOf j) } := by
      simp only [carryBind, requestOf, hparse, onHandle_of_names (hnames.begun p 0), hbinding, b]
    exact exec_of_answer hadm hcarry
  · have hbinding : (b.channel c).binding = none := hnone
    have hcarry : carryBind (requestOf f 0 p (s.ticksLeft 0)) b = { st := b, outcome := .bound, body := small d } := by
      simp only [carryBind, requestOf, hparse, onHandle_of_names (hnames.begun p 0), hbinding, hd, b]
    exact exec_of_answer hadm hcarry
  · have hbinding : (b.channel c).binding = none := hnone
    have hcarry : carryBind (requestOf f 0 p (s.ticksLeft 0)) b =
        { st := (b.join c h.slot r).notice c .value r.live, outcome := .done,
          body := encHandle h ++ bytes16 (r.revision + 1) ++ small c ++ bytes16 r.live ++ bytes16 (b.channel c).acked } := by
      simp only [carryBind, requestOf, hparse, onHandle_of_names (hnames.begun p 0), hbinding, hfree, b]
    exact exec_of_answer hadm hcarry
  · have hbinding : (b.channel c).binding = none := hnone
    have hcarry : carryUnbind (requestOf f 0 p (s.ticksLeft 0)) b = { st := b, outcome := .done, body := [0] } := by
      simp only [carryUnbind, requestOf, hparse, hbinding]
      rfl
    exact exec_of_answer hadm hcarry
  · have hbinding : (b.channel c).binding = some i := hi
    have hrecord : b.record i = some r := hrec
    have hunbind : b.unbindRecord i = b.setRecord i (some { r with binding := none, revision := r.revision + 1 }) := by
      simp only [State.unbindRecord, hrecord]
    have hrevision : b.revisionAt i = r.revision := by simp only [State.revisionAt, hrecord]
    have hcarry : carryUnbind (requestOf f 0 p (s.ticksLeft 0)) b =
        { st := (b.setRecord i (some { r with binding := none, revision := r.revision + 1 })).parkChannel c
          outcome := .done
          body := flag true ++ encHandle (b.handleOf i) ++ bytes16 (r.revision + 1) ++ bytes16 (b.channel c).park } := by
      simp only [carryUnbind, requestOf, hparse, hbinding, hunbind, hrevision]
    exact exec_of_answer hadm hcarry
  · have hisNone : (b.channel c).binding.isNone = false := by
      rw [Option.isNone_eq_false_iff]
      exact Option.isSome_iff_ne_none.2 hbound
    have hcarry : carrySetPark (requestOf f 0 p (s.ticksLeft 0)) b =
        { st := b.setChannel c { (b.channel c) with park := v }, outcome := .done,
          body := small c ++ bytes16 (b.channel c).park ++ flag false } := by
      simp only [carrySetPark, requestOf, hparse, hisNone, Bool.false_eq_true, if_false]
    exact exec_of_answer hadm hcarry
  · have hisNone : (b.channel c).binding.isNone = true := Option.isNone_iff_eq_none.2 hnone
    have hcarry : carrySetPark (requestOf f 0 p (s.ticksLeft 0)) b =
        { st := (b.setChannel c { (b.channel c) with park := v }).notice c .parked v, outcome := .done,
          body := small c ++ bytes16 (b.channel c).park ++ flag true } := by
      simp only [carrySetPark, requestOf, hparse, hisNone, if_true]
    exact exec_of_answer hadm hcarry

/-! ### KEEPALIVE and the queries (R58, R65, R116, R146) -/

/-- Settles O42: the renewal is the whole of the request. -/
theorem keepaliveRenewsAndReports : Obligations.KeepaliveRenewsAndReports := by
  intro s p f a hadm ho hbody n hperiod
  have hload : loadCount (s.row a).period = if n = 0 then none else some n := by rw [hperiod, loadCount_some]
  have hbegun : s.begun p a = (s.takeFrom p).setRow a { (s.row a) with
      countdown := if n = 0 then none else some n, expired := false } := by
    rw [← hload]
    rfl
  have hrow : ((s.begun p a).row a).period = some n := by
    rw [hbegun, State.row_setRow_self]
    exact hperiod
  have hcarry : carryKeepalive (requestOf f a p (s.ticksLeft a)) (s.begun p a) =
      { st := s.begun p a, outcome := .done, body := bytesOf16 n ++ bytesOf16 (s.ticksLeft a) } := by
    simp only [carryKeepalive, requestOf, parseNone_nil ho hbody, hrow, Option.getD_some]
  exact ⟨exec_of_answer hadm hcarry, hbegun⟩

theorem remaining_eq (row : AgentRow) :
    row.remaining = if row.expired ∧ row.countdown = none then some 0 else row.countdown := by
  unfold AgentRow.remaining
  cases row.countdown with
  | none => simp
  | some n => simp

theorem agentReport_eq (s : State) (b : Agent) : s.agentReport b =
    let row := s.row b
    [row.state.code, row.epoch] ++ optional small row.port ++ optional bytesOf16 row.period
      ++ optional bytesOf16 (if row.expired ∧ row.countdown = none then some 0 else row.countdown)
      ++ bytesOf16 (s.heldSlots b).length ++ [byteOf (s.claimsOf b), byteOf row.attention.length]
      ++ (List.finRange 8).map fun c => (s.rightsOf b c).toByte := by
  simp only [State.agentReport, remaining_eq, List.append_assoc]
  rfl

theorem sweeping_eq (s : State) (g : GroupNo) :
    s.sweeping g = decide (s.sweep.isSome ∧ s.sweep.map (·.group) = some g) := by
  unfold State.sweeping
  cases s.sweep with
  | none => simp
  | some w => simp [beq_eq_decide]

theorem cursorOf_eq (s : State) (g : GroupNo) : s.cursorOf g =
    if s.sweep.isSome ∧ s.sweep.map (·.group) = some g then s.sweep.bind (·.cursor) else none := by
  unfold State.cursorOf
  cases s.sweep with
  | none => simp
  | some w => simp

theorem waitingAt_of_waiting {c : ChannelNo} {pre post : List Update} {u : Update} (hu : u.channel = c)
    (hpre : ∀ d ∈ pre, d.channel ≠ c) (n : Nat) : waitingAt c n (pre ++ u :: post) = some (u, pre.length + n) := by
  induction pre generalizing n with
  | nil => rw [List.nil_append, waitingAt, if_pos hu, List.length_nil, Nat.zero_add]
  | cons d pre ih =>
    rw [List.cons_append, waitingAt, if_neg (hpre d List.mem_cons_self),
      ih (fun e he => hpre e (List.mem_cons_of_mem d he)) (n + 1), List.length_cons]
    congr 2
    omega

theorem waitingAt_of_none {c : ChannelNo} {l : List Update} (hnone : ∀ d ∈ l, d.channel ≠ c) (n : Nat) :
    waitingAt c n l = none := by
  induction l generalizing n with
  | nil => rfl
  | cons d l ih =>
    rw [waitingAt, if_neg (hnone d List.mem_cons_self), ih fun e he => hnone e (List.mem_cons_of_mem d he)]

/-- The items of QUERY_CHANNEL that come from the link: the frame in flight, the state, and what they carry (R146). -/
def Link.items (l : Link) (c : ChannelNo) : List Byte :=
  optional (fun f : Update => [f.kind.code] ++ bytes16 f.value) (l.inFlight c) ++ [l.code]
    ++ optional (fun n => [byteOf n]) l.attempt ++ optional (fun f : Update => small f.channel) l.frame
    ++ optional bytesOf16 l.timer

/-- The item of the frame in flight, when the link carries frame `u`. -/
theorem inFlight_item {l : Link} {u : Update} (hframe : l.frame = some u) (c : ChannelNo) :
    optional (fun f : Update => [f.kind.code] ++ bytes16 f.value) (l.inFlight c) =
      if u.channel = c then [1, if u.kind = .parked then 1 else 0] ++ bytes16 u.value else [0] := by
  rw [← updKind_code]
  simp only [Link.inFlight, hframe]
  split <;> rfl

theorem items_eq (l : Link) (c : ChannelNo) : l.items c =
    let flight : Update → List Byte := fun u =>
      if u.channel = c then [1, if u.kind = .parked then 1 else 0] ++ bytes16 u.value else [0]
    match l with
    | .idle => [0, 0, 0, 0, 0]
    | .sending u n => flight u ++ [1, 1, byteOf n, 1, byteOf u.channel.val, 0]
    | .awaitAck u n m => flight u ++ [2, 1, byteOf n, 1, byteOf u.channel.val, 1] ++ bytesOf16 (max m 1)
    | .stalled u => flight u ++ [3, 1, 4, 1, byteOf u.channel.val, 0] := by
  cases l with
  | idle => rfl
  | sending u n =>
    rw [Link.items, inFlight_item (u := u) rfl]
    simp only [List.append_assoc]
    rfl
  | awaitAck u n m =>
    rw [Link.items, inFlight_item (u := u) rfl]
    simp only [List.append_assoc]
    rfl
  | stalled u =>
    rw [Link.items, inFlight_item (u := u) rfl]
    simp only [List.append_assoc]
    rfl

/-- The item of a channel's binding in its report. -/
def State.boundItem (s : State) (c : ChannelNo) : List Byte :=
  optional (fun b : Handle × Key => encHandle b.1 ++ bytes16 b.2)
    ((s.channel c).binding.bind fun i => (s.record i).map fun r => (s.handleOf i, r.key))

/-- The item of a channel's waiting entry in its report. -/
def State.waitingItem (s : State) (c : ChannelNo) : List Byte :=
  optional (fun w : Update × Nat => [w.1.kind.code] ++ bytes16 w.1.value ++ [byteOf w.2])
    (waitingAt c 1 s.updateQueue)

theorem channelReport_eq (s : State) (c : ChannelNo) : s.channelReport c =
    s.boundItem c ++ bytes16 (s.channel c).park ++ bytes16 (s.channel c).driven ++ bytes16 (s.channel c).acked
      ++ s.waitingItem c ++ s.link.items c ++ [byteOf s.updateQueue.length] := by
  cases hbinding : (s.channel c).binding with
  | none =>
    simp only [State.channelReport, Link.items, State.boundItem, State.waitingItem, hbinding, Option.bind_none,
      List.append_assoc]
  | some i =>
    simp only [State.channelReport, Link.items, State.boundItem, State.waitingItem, hbinding, Option.bind_some,
      List.append_assoc]

theorem boundItem_of_unbound {s : State} {c : ChannelNo} (h : (s.channel c).binding = none) : s.boundItem c = [0] := by
  simp only [State.boundItem, h, Option.bind_none, optional]

theorem boundItem_of_bound {s : State} {c : ChannelNo} {i : SlotNo} {r : Record} (h : (s.channel c).binding = some i)
    (hrec : s.record i = some r) :
    s.boundItem c = [1, byteOf i.val, (s.slots.get i).inc] ++ bytes16 r.key := by
  simp only [State.boundItem, h, hrec, optional, Option.bind_some, Option.map_some]
  rfl

theorem waitingItem_of_none {s : State} {c : ChannelNo} (h : ∀ u ∈ s.updateQueue, u.channel ≠ c) :
    s.waitingItem c = [0] := by
  rw [State.waitingItem, waitingAt_of_none h]
  rfl

theorem waitingItem_of_waiting {s : State} {c : ChannelNo} {pre post : List Update} {u : Update}
    (h : s.updateQueue = pre ++ u :: post) (hpre : ∀ d ∈ pre, d.channel ≠ c) (hu : u.channel = c) : s.waitingItem c =
      [1, if u.kind = .parked then 1 else 0] ++ bytes16 u.value ++ [byteOf (pre.length + 1)] := by
  rw [State.waitingItem, h, waitingAt_of_waiting hu hpre, ← updKind_code]
  rfl

/-- Settles O43: the reports, item by item, on the renewed state. -/
theorem queriesReport : Obligations.QueriesReport := by
  intro s p f
  refine ⟨fun b hadm hparse => ?_, fun g hadm hparse => ?_,
    fun c bound waiting hadm hparse => ?_⟩
  · have hcarry : carryQueryAgent (requestOf f 0 p (s.ticksLeft 0)) (s.begun p 0) =
        { st := s.begun p 0, outcome := .done, body := (s.begun p 0).agentReport b } := by
      simp only [carryQueryAgent, requestOf, hparse]
    rw [agentReport_eq] at hcarry
    exact exec_of_answer hadm hcarry
  · have hcarry : carryQueryGroup (requestOf f 0 p (s.ticksLeft 0)) (s.begun p 0) =
        { st := s.begun p 0, outcome := .done, body := (s.begun p 0).groupReport g } := by
      simp only [carryQueryGroup, requestOf, hparse]
    have hreport := exec_of_answer hadm hcarry
    simp only [State.groupReport, sweeping_eq, cursorOf_eq] at hreport
    exact hreport
  · intro ch kind hbound hwaiting flight link
    have hboundItem : (s.begun p 0).boundItem c = bound := by
      rcases hbound with ⟨hnone, rfl⟩ | ⟨i, r, hi, hrec, rfl⟩
      · exact boundItem_of_unbound (s := s.begun p 0) hnone
      · exact boundItem_of_bound (s := s.begun p 0) hi hrec
    have hwaitingItem : (s.begun p 0).waitingItem c = waiting := by
      rcases hwaiting with ⟨hnone, rfl⟩ | ⟨pre, u, post, hqueue, hpre, hu, rfl⟩
      · exact waitingItem_of_none (s := s.begun p 0) hnone
      · exact waitingItem_of_waiting (s := s.begun p 0) hqueue hpre hu
    have hlink : (s.begun p 0).link.items c = link := items_eq s.link c
    have hcarry : carryQueryChannel (requestOf f 0 p (s.ticksLeft 0)) (s.begun p 0) =
        { st := s.begun p 0, outcome := .done, body := (s.begun p 0).channelReport c } := by
      simp only [carryQueryChannel, requestOf, hparse]
    rw [channelReport_eq, hboundItem, hwaitingItem, hlink] at hcarry
    exact exec_of_answer hadm hcarry

end Sys2Proof.Machine
end

section
/-! PROOF. Sessions: ATTACH, DETACH and RESTART past their checks (R55 to R60, R66 to R68, R73, R87). -/
namespace Sys2Proof.Machine

/-! ### ATTACH (R55 to R57) -/

section
variable {s : State} {q : Request} {n : Nat}

theorem carryAttach_of_parse (hparse : parseAttach q.agent q.options q.body = some n) :
    ((s.row q.agent).state ≠ .attached → carryAttach q s =
        { st := s.setRow q.agent ((s.row q.agent).begin q.port n), outcome := .done,
          body := [nextEpoch (s.row q.agent).epoch] ++ bytesOf16 n
            ++ [if (s.row q.agent).state = .lost then 2 else 0, 0] })
      ∧ ((s.row q.agent).state = .attached → carryAttach q s =
        { st := (s.lapseAgent q.agent).setRow q.agent ((s.row q.agent).lose.begin q.port n), outcome := .done,
          body := [nextEpoch (s.row q.agent).epoch] ++ bytesOf16 n ++ [1, 1] }) := by
  have hlost : (s.lapseAgent q.agent).row q.agent = (s.row q.agent).lose := (row_lapseAgent s q.agent q.agent).1 rfl
  refine ⟨fun hnot => ?_, fun hattached => ?_⟩
  · simp only [carryAttach, hparse, if_neg hnot]
    cases hstate : (s.row q.agent).state with
    | attached => exact absurd hstate hnot
    | detached => rfl
    | lost => rfl
  · simp only [carryAttach, hparse, hattached, if_true, hlost]
    rfl

end

/-- Settles O40: a live session is lost first, and the new one begins on the row that leaves. -/
theorem attachBeginsSession : Obligations.AttachBeginsSession := by
  intro s p f a n hoffers hagent hparse e
  obtain ⟨hfresh, hlive⟩ := carryAttach_of_parse (s := s.takeFrom p) (q := requestOf f a p 0) hparse
  have hbegin : ∀ row : AgentRow, row.begin p n = { row with
      state := .attached, epoch := nextEpoch row.epoch, port := some p, period := some n
      countdown := if n = 0 then none else some n, expired := false } := fun row => by
    rw [← loadCount_some]
    rfl
  have hexec := exec_attach_of_offers hoffers hagent
  refine ⟨fun hstate => ?_, fun hstate => ?_⟩
  · rw [hfresh hstate] at hexec
    refine hexec.trans ?_
    rw [show (requestOf f a p 0).port = p from rfl, hbegin]
    rfl
  · rw [hlive hstate] at hexec
    refine hexec.trans ?_
    rw [show (requestOf f a p 0).port = p from rfl, hbegin]
    rfl

/-! ### What a DETACH counts (R60) -/

/-- How many records pass a test. -/
def State.countRecords (s : State) (test : Record → Bool) : Nat :=
  (allSlots.filter fun i => (s.record i).any test).length

section
variable (s : State) (a : Agent)

theorem length_heldSlots : (s.heldSlots a).length = s.countRecords fun r => r.state == .held a := by
  unfold State.heldSlots State.countRecords
  congr 1
  refine List.filter_congr fun i _ => ?_
  cases s.record i <;> rfl

theorem claimsOf_eq : s.claimsOf a = s.countRecords fun r => r.queue.contains a := by
  unfold State.claimsOf State.countRecords
  congr 1
  refine List.filter_congr fun i _ => ?_
  cases s.record i <;> rfl

theorem watchesOf_eq : s.watchesOf a = s.countRecords fun r => r.watchers.mem a := by
  unfold State.watchesOf State.countRecords
  congr 1
  refine List.filter_congr fun i _ => ?_
  cases s.record i <;> rfl

/-- The records that go to a waiter: those held with a waiter other than the agent. -/
theorem length_handed : (((s.dropAgent a).heldSlots a).filter fun i =>
    ((s.dropAgent a).record i).any fun r => !r.queue.isEmpty).length
      = s.countRecords fun r => r.state == .held a && r.queue.any (· != a) := by
  rw [heldSlots_of_records (record_dropAgent s a), State.heldSlots, List.filter_filter, State.countRecords]
  congr 1
  refine List.filter_congr fun i _ => ?_
  rw [record_dropAgent]
  cases s.record i with
  | none => rfl
  | some r =>
    have hwaiter : (!(r.queue.filter (· != a)).isEmpty) = r.queue.any (· != a) := by
      induction r.queue with
      | nil => rfl
      | cons b l ih => cases hb : (b != a) <;> simp_all
    simp only [Option.map_some, Option.any_some, Record.dropAgent, hwaiter, Record.heldBy]
    exact Bool.and_comm _ _

end

theorem carryDetach_of_parse {s : State} {q : Request} (hparse : parseNone q.options q.body = some ()) :
    carryDetach q s =
      { st := s.detachAgent q.agent, outcome := .done,
        body := bytesOf16 (s.countRecords fun r => r.state == .held q.agent)
          ++ [byteOf (s.countRecords fun r => r.state == .held q.agent && r.queue.any (· != q.agent)),
              byteOf (s.countRecords fun r => r.queue.contains q.agent)]
          ++ bytesOf16 (s.countRecords fun r => r.watchers.mem q.agent) } := by
  rw [← length_handed, ← claimsOf_eq, ← watchesOf_eq, ← length_heldSlots,
    ← heldSlots_of_records (record_dropAgent s q.agent) q.agent]
  simp only [carryDetach, hparse]
  exact congrArg (fun handed : List SlotNo => ({
      st := s.detachAgent q.agent
      outcome := .done
      body := bytesOf16 ((s.dropAgent q.agent).heldSlots q.agent).length
        ++ [byteOf handed.length, byteOf (s.claimsOf q.agent)] ++ bytesOf16 (s.watchesOf q.agent) } : Answer))
    (List.filter_congr fun i _ => by cases (s.dropAgent q.agent).record i <;> rfl)

/-! ### The end of a session by DETACH (R59, R73, R87) -/

theorem passOn_eq (r : Record) : r.passOn = { r with
    state := (match r.queue with | [] => .opened | w :: _ => .held w)
    queue := r.queue.tail, staged := none, revision := r.revision + 1 } := by
  unfold Record.passOn
  cases r.queue <;> rfl

/-- GRANTED for agent `b`, when it heads the queue of the record in slot `i` (R73). -/
def State.grantTold (s : State) (b : Agent) (row : AgentRow) (i : SlotNo) : AgentRow :=
  match s.record i with
  | some r => if r.queue.head? = some b then row.condition .granted (s.handleOf i) r.key else row
  | none => row

theorem row_releaseSlot_eq (s : State) {a b : Agent} (hb : b ≠ a) (i : SlotNo) :
    (s.releaseSlot a i).row b = s.grantTold b (s.row b) i := by
  cases hrec : s.record i with
  | none => simp only [State.releaseSlot, State.grantTold, hrec]
  | some r => rw [row_releaseSlot hrec hb, State.grantTold, hrec]

theorem grantTold_congr {s t : State} {i : SlotNo} (hrec : t.record i = s.record i)
    (hinc : (t.slots.get i).inc = (s.slots.get i).inc) (b : Agent) (row : AgentRow) :
    t.grantTold b row i = s.grantTold b row i := by
  simp only [State.grantTold, hrec, State.handleOf, hinc]

/-- Each slot released tells its own head waiter, and what it tells does not depend on the slots released before. -/
theorem row_foldl_releaseSlot_eq {a b : Agent} (hb : b ≠ a) (l : List SlotNo) (hl : l.Nodup) (s : State) :
    (l.foldl (State.releaseSlot a) s).row b = l.foldl (s.grantTold b) (s.row b) := by
  induction l generalizing s with
  | nil => rfl
  | cons i l ih =>
    obtain ⟨hi, hl⟩ := List.nodup_cons.1 hl
    rw [List.foldl_cons, List.foldl_cons, ih hl, row_releaseSlot_eq s hb]
    refine List.foldl_ext _ _ _ fun row j hj => grantTold_congr ?_ ?_ b row
    · rw [record_releaseSlot, if_neg fun (heq : j = i) => hi (heq ▸ hj)]
    · exact (State.SameAround.releaseSlot a s i).inc j

section
variable (s : State) {a b : Agent}

theorem row_detachAgent_other (hb : b ≠ a) : (s.detachAgent a).row b =
    (((s.dropAgent a).heldSlots a).foldl (State.releaseSlot a) (s.dropAgent a)).row b := by
  unfold State.detachAgent
  rw [row_clearSupervisor, State.row_setRow, if_neg (Ne.symm hb)]

theorem inc_dropAgent (a : Agent) (i : SlotNo) : ((s.dropAgent a).slots.get i).inc = (s.slots.get i).inc := by
  unfold State.dropAgent
  rw [Tab.get_map]

/-- Another agent is told GRANTED of each record held that it is first in line for, in ascending order of slot. -/
theorem row_detachAgent_grants (hb : b ≠ a) : (s.detachAgent a).row b = allSlots.foldl (fun row i =>
    if (s.record i).any (·.heldBy a) then (s.dropAgent a).grantTold b row i else row) (s.row b) := by
  rw [row_detachAgent_other s hb, row_foldl_releaseSlot_eq hb _ (nodup_heldSlots _ a),
    heldSlots_of_records (record_dropAgent s a), row_dropAgent, State.heldSlots, List.foldl_filter]
  refine List.foldl_ext _ _ _ fun row i _ => ?_
  cases s.record i <;> rfl

/-- An agent that waits for none of the records held is told nothing. -/
theorem row_detachAgent_of_apart (hb : b ≠ a) (hapart : ∀ i r, s.record i = some r → r.state = .held a → b ∉ r.queue) :
    (s.detachAgent a).row b = s.row b := by
  rw [row_detachAgent_other s hb, row_foldl_releaseSlot a _ (nodup_heldSlots _ a), row_dropAgent]
  intro i hi r hr hhead
  obtain ⟨x, hx, hheld⟩ := (mem_heldSlots _ a i).1 hi
  rw [hx] at hr
  cases hr
  rw [record_dropAgent, Option.map_eq_some_iff] at hx
  obtain ⟨y, hy, rfl⟩ := hx
  exact hapart i y hy hheld (List.mem_filter.1 (List.mem_of_mem_head? hhead)).1

theorem output_releaseSlot (a : Agent) (i : SlotNo) :
    (s.releaseSlot a i).channels = s.channels ∧ (s.releaseSlot a i).updateQueue = s.updateQueue := by
  unfold State.releaseSlot
  split
  · exact ⟨rfl, rfl⟩
  · unfold State.handOver
    split
    · exact ⟨rfl, rfl⟩
    · split <;> exact ⟨rfl, rfl⟩

theorem output_foldl_releaseSlot (a : Agent) (l : List SlotNo) (s : State) :
    (l.foldl (State.releaseSlot a) s).channels = s.channels
      ∧ (l.foldl (State.releaseSlot a) s).updateQueue = s.updateQueue := by
  induction l generalizing s with
  | nil => exact ⟨rfl, rfl⟩
  | cons i l ih =>
    obtain ⟨hchannels, hqueue⟩ := ih (s.releaseSlot a i)
    obtain ⟨hchannels', hqueue'⟩ := output_releaseSlot s a i
    exact ⟨hchannels.trans hchannels', hqueue.trans hqueue'⟩

theorem output_detachAgent (a : Agent) :
    (s.detachAgent a).channels = s.channels ∧ (s.detachAgent a).updateQueue = s.updateQueue := by
  unfold State.detachAgent
  rw [clearSupervisor_frame]
  exact output_foldl_releaseSlot a _ (s.dropAgent a)

theorem flags_detachAgent (a : Agent) :
    (a = 0 → (s.detachAgent a).linkStalled = false ∧ (s.detachAgent a).lostAgents = FinSet.empty 8)
      ∧ (a ≠ 0 → (s.detachAgent a).linkStalled = s.linkStalled ∧ (s.detachAgent a).lostAgents = s.lostAgents) := by
  obtain ⟨hstalled, hlost⟩ := flags_foldl (a := a) (fun s i => releaseSlot_touched s a i) ((s.dropAgent a).heldSlots a)
    (s.dropAgent a)
  obtain ⟨hsup, hother⟩ := flags_clearSupervisor
    (((((s.dropAgent a).heldSlots a).foldl (State.releaseSlot a) (s.dropAgent a)).setRow a
      ((((s.dropAgent a).heldSlots a).foldl (State.releaseSlot a) (s.dropAgent a)).row a).leave)) a
  exact ⟨hsup, fun ha => ⟨(hother ha).1.trans hstalled, (hother ha).2.trans hlost⟩⟩

end

theorem row_begun (s : State) (p : PortId) (a b : Agent) :
    (s.begun p a).row b = if b = a then (s.row a).renew else s.row b := by
  show ((s.takeFrom p).setRow a (s.row a).renew).row b = _
  rw [State.row_setRow, State.row_takeFrom]
  simp only [eq_comm]

/-- Settles O41: the detachment, part by part, from the renewed state. -/
theorem detachReleasesEverything : Obligations.DetachReleasesEverything := by
  intro s p f a hadm ho hbody count
  have hcount : ∀ test, count test = s.countRecords test := fun test => by
    show List.length _ = _
    unfold State.countRecords
    congr 1
    refine List.filter_congr fun i _ => ?_
    cases s.record i <;> rfl
  have hother : ∀ b, b ≠ a → (s.begun p a).row b = s.row b := fun b hb => by rw [row_begun, if_neg hb]
  have hstore := (State.SameStore.refl (s.begun p a)).detachAgent a
  have hfront := (State.SameFront.refl (s.begun p a)).detachAgent a
  obtain ⟨hsup, hkept⟩ := flags_detachAgent (s.begun p a) a
  obtain ⟨hchannels, hqueue⟩ := output_detachAgent (s.begun p a) a
  refine ⟨(s.begun p a).detachAgent a, ?_, ?_, fun i => ?_, fun b hb => ?_, fun b hb hapart => ?_, fun b hb => ?_, hkept,
    hsup, hstore.inc, hstore.keyIndex, hstore.freeList, hstore.rights, hstore.groups, hstore.sweep, hchannels, hqueue,
    hstore.link, hfront.ports, hfront.pointer, hfront.phase, hfront.applyLevels, hfront.uldat, hfront.pending⟩
  · rw [hcount, hcount, hcount, hcount]
    exact exec_of_answer hadm (carryDetach_of_parse (parseNone_nil ho hbody))
  · rw [(row_detachAgent _ a a).1 rfl, row_begun, if_pos rfl]
    rfl
  · rw [record_detachAgent]
    show Option.map _ (s.record i) = _
    congr 1
    funext r
    rw [passOn_eq]
    rfl
  · have hsame := ((row_detachAgent (s.begun p a) a b).2 hb).sameSession
    rw [hother b hb] at hsame
    exact ⟨hsame.state, hsame.epoch, hsame.port, hsame.period, hsame.countdown, hsame.expired⟩
  · rw [row_detachAgent_of_apart (s.begun p a) hb hapart, hother b hb]
  · rw [row_detachAgent_grants (s.begun p a) hb, hother b hb]
    refine List.foldl_ext _ _ _ fun row i _ => ?_
    have hrec : (s.begun p a).record i = s.record i := rfl
    have hhandle : ((s.begun p a).dropAgent a).handleOf i = s.handleOf i :=
      congrArg (Handle.mk i) (inc_dropAgent (s.begun p a) a i)
    rw [State.grantTold, record_dropAgent, hrec, hhandle]
    cases s.record i with
    | none => rfl
    | some r => by_cases hheld : r.state = .held a <;> simp [Record.heldBy, Record.dropAgent, hheld]

/-! ### RESTART (R66 to R68) -/

/-- Parking channels lets each entry already waiting keep its place (R67, R147). -/
theorem channels_foldl_parkChannel (l : List ChannelNo) (s : State) :
    s.updateQueue.map (·.channel) <+: (l.foldl State.parkChannel s).updateQueue.map (·.channel) := by
  induction l generalizing s with
  | nil => exact List.prefix_refl _
  | cons c l ih =>
    refine List.IsPrefix.trans ?_ (ih (s.parkChannel c))
    show _ <+: (enqueue { channel := c, kind := .parked, value := (s.channel c).park } s.updateQueue).map (·.channel)
    rw [enqueue_channels]
    split
    · exact List.prefix_refl _
    · exact List.prefix_append _ _

theorem nodup_parkChannel {s : State} (h : (s.updateQueue.map (·.channel)).Nodup) (c : ChannelNo) :
    ((s.parkChannel c).updateQueue.map (·.channel)).Nodup := enqueue_nodup _ _ h

theorem nodup_foldl_parkChannel (l : List ChannelNo) {s : State} (h : (s.updateQueue.map (·.channel)).Nodup) :
    ((l.foldl State.parkChannel s).updateQueue.map (·.channel)).Nodup := by
  induction l generalizing s with
  | nil => exact h
  | cons c l ih => exact ih (nodup_parkChannel h c)

theorem mem_parkChannel {s : State} (h : (s.updateQueue.map (·.channel)).Nodup) (c : ChannelNo) (u : Update) :
    u ∈ (s.parkChannel c).updateQueue ↔
      (u.channel = c ∧ u.kind = .parked ∧ u.value = (s.channel u.channel).park) ∨ (u.channel ≠ c ∧ u ∈ s.updateQueue) := by
  show u ∈ enqueue { channel := c, kind := .parked, value := (s.channel c).park } s.updateQueue ↔ _
  rw [mem_enqueue _ _ _ h]
  refine or_congr ⟨fun heq => by rw [heq]; exact ⟨rfl, rfl, rfl⟩, fun ⟨hchannel, hkind, hvalue⟩ => ?_⟩ and_comm
  obtain ⟨channel, kind, value⟩ := u
  dsimp only at hchannel hkind hvalue
  subst hchannel hkind hvalue
  rfl

theorem mem_foldl_parkChannel (l : List ChannelNo) {s : State} (h : (s.updateQueue.map (·.channel)).Nodup) (u : Update) :
    u ∈ (l.foldl State.parkChannel s).updateQueue ↔
      (u.channel ∈ l ∧ u.kind = .parked ∧ u.value = (s.channel u.channel).park)
        ∨ (u.channel ∉ l ∧ u ∈ s.updateQueue) := by
  induction l generalizing s with
  | nil => simp
  | cons c l ih =>
    have hpark : ((s.parkChannel c).channel u.channel).park = (s.channel u.channel).park := by
      rw [channel_parkChannel]
      split <;> rfl
    rw [List.foldl_cons, ih (nodup_parkChannel h c), mem_parkChannel h, hpark, List.mem_cons]
    tauto

theorem mem_restartOrder (s : State) (c : ChannelNo) :
    c ∈ rankOrder (Config.restartRank s.freeDraws) s.boundChannels ↔ (s.channel c).binding ≠ none := by
  rw [(rankOrder_perm _ _).mem_iff]
  simp [State.boundChannels, allChannels, Option.isSome_iff_ne_none]

section
variable (s : State)

theorem updateQueue_restartAll : s.restartAll.updateQueue = s.parkAll.updateQueue := by
  rw [restartAll_frame]

theorem group_restartAll (g : GroupNo) : s.restartAll.group g = { (s.group g) with
    pending := false
    counter := if (s.group g).trigger = .period then some (s.group g).period else none } := by
  rw [restartAll_frame]
  exact Tab.get_map _ s.groups g

theorem slot_restartAll (i : SlotNo) :
    s.restartAll.slots.get i = { inc := (s.slots.get i).inc, record := none } := by
  rw [restartAll_frame]
  exact Tab.get_map _ s.slots i

theorem freeList_restartAll : s.restartAll.freeList = allSlots := by
  rw [restartAll_frame]

theorem restart_supervisor (row : AgentRow) : row.renew.restart 0 = { row.renew with overflow := false, attention := [] } :=
  if_pos rfl

theorem restart_live {a : Agent} (ha : a ≠ 0) {row : AgentRow} (h : row.state ≠ .detached) :
    row.restart a = row.leave := by
  rw [AgentRow.restart, if_neg ha, if_neg h]

theorem restart_detached {a : Agent} (ha : a ≠ 0) {row : AgentRow} (h : row.state = .detached) : row.restart a = row := by
  rw [AgentRow.restart, if_neg ha, if_pos h]

theorem carryRestart_of_parse {q : Request} (hparse : parseNone q.options q.body = some ()) : carryRestart q s =
    { st := s.restartAll, outcome := .done,
      body := bytesOf16 (allSlots.filter fun i => (s.record i).isSome).length
        ++ [byteOf (allAgents.filter fun a => a != 0 && (s.row a).state != .detached).length,
            byteOf s.boundChannels.length] } := by
  simp only [carryRestart, hparse]

end

/-- Settles O44: `restartAll`, part by part, from the renewed state. -/
theorem restartClearsTheDirectory : Obligations.RestartClearsTheDirectory := by
  intro s p f hadm ho hbody hnodup
  have hother : ∀ a, a ≠ 0 → (s.begun p 0).row a = s.row a := fun a ha => by rw [row_begun, if_neg ha]
  have hchannel : ∀ c, (s.begun p 0).channel c = s.channel c := fun _ => rfl
  have hqueue := updateQueue_restartAll (s.begun p 0)
  have hnodup : (((s.begun p 0).clearStore.updateQueue).map (·.channel)).Nodup := hnodup
  refine ⟨(s.begun p 0).restartAll, ?_, slot_restartAll _, ?_, freeList_restartAll _, ?_⟩
  · have hended : (allAgents.filter fun a => a != 0 && ((s.begun p 0).row a).state != .detached)
        = (allAgents.filter fun a => a != 0 && (s.row a).state != .detached) := by
      refine List.filter_congr fun a _ => ?_
      by_cases ha : a = 0
      · rw [ha]; rfl
      · rw [hother a ha]
    have hcarry := carryRestart_of_parse (s.begun p 0) (q := requestOf f 0 p (s.ticksLeft 0)) (parseNone_nil ho hbody)
    rw [hended] at hcarry
    exact exec_of_answer hadm hcarry
  · rw [restartAll_frame]
  · have hrest : ∀ t : State, t = (s.begun p 0).restartAll → t.rights = s.rights ∧ t.applyLevels = s.applyLevels
        ∧ t.link = s.link ∧ t.ports = (s.takeFrom p).ports ∧ t.pointer = .port p ∧ t.sweep = none ∧ t.phase = s.phase
        ∧ t.uldat = s.uldat ∧ t.pending = s.pending ∧ t.linkStalled = false ∧ t.lostAgents = FinSet.empty 8 := by
      rintro t rfl
      rw [restartAll_frame]
      exact ⟨rfl, rfl, rfl, rfl, rfl, rfl, rfl, rfl, rfl, rfl, rfl⟩
    obtain ⟨hrights, hlevels, hlink, hports, hpointer, hsweep, hphase, huldat, hpending, hstalled, hlost⟩ := hrest _ rfl
    refine ⟨hrights, hlevels, hlink, hports, hpointer, hsweep, hphase, huldat, hpending, hstalled, hlost, ?_,
      fun a ha hlive => ?_, fun a ha hdetached => ?_, group_restartAll _, fun c hc => ?_, fun c hc => ?_, ?_, ?_,
      fun u => ?_⟩
    · rw [row_restartAll, row_begun, if_pos rfl, restart_supervisor]
    · rw [row_restartAll, hother a ha, restart_live ha hlive]
      rfl
    · rw [row_restartAll, hother a ha, restart_detached ha hdetached]
    · rw [channel_restartAll, hchannel, if_neg fun hsome => Option.isSome_iff_ne_none.1 hsome hc]
    · rw [channel_restartAll, hchannel, if_pos (Option.isSome_iff_ne_none.2 hc)]
    · rw [hqueue]
      exact channels_foldl_parkChannel _ (s.begun p 0).clearStore
    · rw [hqueue]
      exact nodup_foldl_parkChannel _ hnodup
    · rw [hqueue, State.parkAll, mem_foldl_parkChannel _ hnodup, mem_restartOrder, not_not]
      exact Iff.rfl

end Sys2Proof.Machine
end

section
/-! PROOF. How a request body is read: each kind's reader answers given fields on the body that spells them and on no
other (R40, R54, R178, R179). -/
namespace Sys2Proof.Machine

/-! ### The sorts of fields -/

theorem byteOf_toNat (b : Byte) : byteOf b.toNat = b := by
  rw [byteOf, BitVec.ofNat_toNat, BitVec.setWidth_eq]

theorem handleOfBytes_eq {sl inc : Byte} {h : Handle} :
    handleOfBytes sl inc = h ↔ sl = byteOf h.slot.val ∧ inc = h.inc := by
  constructor
  · rintro rfl
    exact ⟨(byteOf_toNat sl).symm, rfl⟩
  · rintro ⟨rfl, rfl⟩
    obtain ⟨slot, inc⟩ := h
    have hslot : slot.val % 2 ^ 8 = slot.val := Nat.mod_eq_of_lt slot.isLt
    simp only [handleOfBytes, byteOf, BitVec.toNat_ofNat, hslot]

theorem finOf_eq_some_byteOf {n : Nat} (hn : n ≤ 256) {b : Byte} {i : Fin n} :
    finOf n b = some i ↔ b = byteOf i.val := by
  constructor
  · intro h
    rw [finOf_eq_some] at h
    rw [← h, byteOf_toNat]
  · rintro rfl
    exact finOf_byteOf hn i

theorem policyOf_eq_some {b : Byte} {x : Policy} : policyOf b = some x ↔ b = x.code := by
  cases x <;> revert b <;> decide

theorem triggerOf_eq_some {b : Byte} {x : Trigger} : triggerOf b = some x ↔ b = x.code := by
  cases x <;> revert b <;> decide

theorem ofByte_eq {n : Nat} {b : Byte} {x : FinSet n} : FinSet.ofByte n b = x ↔ ∀ i, x.mem i = b.getLsbD i.val := by
  constructor
  · rintro rfl i
    exact mem_ofByte n b i
  · intro h
    exact Tab.ext_get fun i => (mem_ofByte n b i).trans (h i).symm

theorem word16_bytes (v : BitVec 16) : word16 (v.extractLsb' 8 8) (v.extractLsb' 0 8) = v := word16_split v

theorem bytes16_word16 (hi lo : Byte) : bytes16 (word16 hi lo) = [hi, lo] := by
  obtain ⟨hhi, hlo⟩ := split_word16 hi lo
  rw [bytes16, hhi, hlo]

/-! ### The split of a body -/

/-- A body is the bytes of the fields, and the guard's two bytes after them when bit 7 of the options is set (R40). -/
def Guarded (o : Byte) (body fields : List Byte) (g : Option (BitVec 16)) : Prop :=
  (o.getLsbD 7 = false ∧ g = none ∧ body = fields) ∨ (o.getLsbD 7 = true ∧ ∃ w, g = some w ∧ body = fields ++ bytes16 w)

theorem splitBody_eq_some {acc : Byte} {n : Nat} {o : Byte} {body bs : List Byte} {g : Option (BitVec 16)} :
    splitBody acc n o body = some (bs, g) ↔ o &&& ~~~acc = 0 ∧ bs.length = n ∧ Guarded o body bs g := splitBody_iff

/-- A kind without options takes the fields alone. -/
theorem splitBody_plain {n : Nat} {o : Byte} {body bs : List Byte} {g : Option (BitVec 16)} :
    splitBody 0 n o body = some (bs, g) ↔ o = 0 ∧ bs.length = n ∧ g = none ∧ body = bs := by
  have hnone : ∀ o : Byte, o &&& ~~~0 = 0 ↔ o = 0 := by decide
  rw [splitBody_eq_some, hnone]
  refine and_congr_right fun ho => and_congr_right fun _ => ?_
  subst ho
  have hguard : ¬ (0 : Byte).getLsbD 7 = true := by decide
  simp [Guarded]

theorem Guarded.length {o : Byte} {body fields : List Byte} {g : Option (BitVec 16)} (h : Guarded o body fields g) :
    body.length = fields.length + if o.getLsbD 7 then 2 else 0 := by
  rcases h with ⟨hbit, -, rfl⟩ | ⟨hbit, w, -, rfl⟩
  · rw [hbit]; rfl
  · rw [hbit, List.length_append]; rfl

theorem Guarded.eq_of_unguarded {o : Byte} {body fields : List Byte} {g : Option (BitVec 16)}
    (h : Guarded o body fields g) (ho : o.getLsbD 7 = false) : body = fields := by
  rcases h with ⟨-, -, hbody⟩ | ⟨hbit, -⟩
  · exact hbody
  · rw [ho] at hbit
    cases hbit

/-! ### Kinds without options -/

section
variable {o : Byte} {body : List Byte}

theorem parseNone_iff : parseNone o body = some () ↔ o = 0 ∧ body = [] := by
  refine ⟨fun h => ?_, fun ⟨ho, hbody⟩ => parseNone_nil ho hbody⟩
  unfold parseNone at h
  split at h
  · next fields hsplit =>
    obtain ⟨ho, hlen, -, rfl⟩ := splitBody_plain.1 hsplit
    exact ⟨ho, List.length_eq_zero_iff.1 hlen⟩
  · cases h

theorem keepaliveAllowed_iff {a : Agent} {n : Nat} :
    keepaliveAllowed a n = true ↔ (10 ≤ n ∧ n ≤ 60000) ∨ (n = 0 ∧ a = 0) := by
  rw [keepaliveAllowed, Bool.or_eq_true, Bool.and_eq_true, Bool.and_eq_true, decide_eq_true_iff, decide_eq_true_iff,
    beq_iff_eq, beq_iff_eq, Config.minKeepalive, Config.maxKeepalive]

theorem parseAttach_iff {a : Agent} {n : Nat} : parseAttach a o body = some n ↔
    o = 0 ∧ ((10 ≤ n ∧ n ≤ 60000) ∨ (n = 0 ∧ a = 0)) ∧ body = bytes16 (BitVec.ofNat 16 n) := by
  rw [← keepaliveAllowed_iff]
  constructor
  · intro h
    unfold parseAttach at h
    split at h
    · next hi lo g hsplit =>
      obtain ⟨ho, -, -, rfl⟩ := splitBody_plain.1 hsplit
      split_ifs at h with hallowed
      cases h
      rw [BitVec.ofNat_toNat, BitVec.setWidth_eq, bytes16_word16]
      exact ⟨ho, hallowed, rfl⟩
    · cases h
  · rintro ⟨rfl, hallowed, rfl⟩
    have hn : n % 2 ^ 16 = n := Nat.mod_eq_of_lt (by rcases keepaliveAllowed_iff.1 hallowed with h | h <;> omega)
    have hsplit := (splitBody_plain (n := 2) (body := bytes16 (BitVec.ofNat 16 n))).2 ⟨rfl, rfl, rfl, rfl⟩
    rw [parseAttach, hsplit]
    simp only [bytes16, word16_bytes, BitVec.toNat_ofNat, hn, hallowed, if_true]

theorem parseAgent_iff {a : Agent} : parseAgent o body = some a ↔ o = 0 ∧ body = [byteOf a.val] := by
  constructor
  · intro h
    unfold parseAgent at h
    split at h
    · next b g hsplit =>
      obtain ⟨ho, -, -, rfl⟩ := splitBody_plain.1 hsplit
      rw [(finOf_eq_some_byteOf (by decide)).1 h]
      exact ⟨ho, rfl⟩
    · cases h
  · rintro ⟨rfl, rfl⟩
    have hsplit := (splitBody_plain (n := 1) (body := [byteOf a.val])).2 ⟨rfl, rfl, rfl, rfl⟩
    simp only [parseAgent, hsplit, finOf_byteOf (n := 8) (by decide)]

theorem parseGroup_iff {g : GroupNo} : parseGroup o body = some g ↔ o = 0 ∧ body = [byteOf g.val] := parseAgent_iff

theorem parseChannel_iff {c : ChannelNo} : parseChannel o body = some c ↔ o = 0 ∧ body = [byteOf c.val] := by
  constructor
  · intro h
    unfold parseChannel at h
    split at h
    · next b g hsplit =>
      obtain ⟨ho, -, -, rfl⟩ := splitBody_plain.1 hsplit
      rw [(finOf_eq_some_byteOf (by decide)).1 h]
      exact ⟨ho, rfl⟩
    · cases h
  · rintro ⟨rfl, rfl⟩
    have hsplit := (splitBody_plain (n := 1) (body := [byteOf c.val])).2 ⟨rfl, rfl, rfl, rfl⟩
    simp only [parseChannel, hsplit, finOf_byteOf (n := 32) (by decide)]

theorem parseSetRights_iff {a : Agent} {c : ClassNo} {rs : RightSet} : parseSetRights o body = some (a, c, rs) ↔
    o = 0 ∧ a ≠ 0 ∧ ∃ x : Byte, x.getLsbD 7 = false ∧ (∀ n, rs.mem n = x.getLsbD n.val)
      ∧ body = [byteOf a.val, byteOf c.val, x] := by
  constructor
  · intro h
    unfold parseSetRights at h
    split at h
    · next ab cb x g hsplit =>
      obtain ⟨ho, -, -, rfl⟩ := splitBody_plain.1 hsplit
      split at h
      · next a' c' ha hc =>
        split_ifs at h with hbad
        cases h
        obtain ⟨hzero, hbit⟩ := not_or.1 hbad
        rw [(finOf_eq_some_byteOf (by decide)).1 ha, (finOf_eq_some_byteOf (by decide)).1 hc]
        exact ⟨ho, hzero, x, Bool.eq_false_iff.2 hbit, ofByte_eq.1 rfl, rfl⟩
      · cases h
    · cases h
  · rintro ⟨rfl, hzero, x, hbit, hmem, rfl⟩
    have hsplit := (splitBody_plain (n := 3) (body := [byteOf a.val, byteOf c.val, x])).2 ⟨rfl, rfl, rfl, rfl⟩
    have hgood : ¬ (a = 0 ∨ x.getLsbD 7 = true) := not_or.2 ⟨hzero, Bool.eq_false_iff.1 hbit⟩
    simp only [parseSetRights, hsplit, finOf_byteOf (n := 8) (by decide), if_neg hgood, ofByte_eq.2 hmem]

theorem parseKey_iff {k : Key} : parseKey o body = some k ↔ o = 0 ∧ k ≠ 0 ∧ body = bytes16 k := by
  constructor
  · intro h
    unfold parseKey at h
    split at h
    · next hi lo g hsplit =>
      obtain ⟨ho, -, -, rfl⟩ := splitBody_plain.1 hsplit
      split_ifs at h with hzero
      cases h
      exact ⟨ho, hzero, (bytes16_word16 hi lo).symm⟩
    · cases h
  · rintro ⟨rfl, hzero, rfl⟩
    have hsplit := (splitBody_plain (n := 2) (body := bytes16 k)).2 ⟨rfl, rfl, rfl, rfl⟩
    rw [parseKey, hsplit]
    simp only [bytes16, word16_bytes, if_neg hzero]

theorem parseAfterKey_iff {k : Key} : parseAfterKey o body = some k ↔ o = 0 ∧ body = bytes16 k := by
  constructor
  · intro h
    unfold parseAfterKey at h
    split at h
    · next hi lo g hsplit =>
      obtain ⟨ho, -, -, rfl⟩ := splitBody_plain.1 hsplit
      cases h
      exact ⟨ho, (bytes16_word16 hi lo).symm⟩
    · cases h
  · rintro ⟨rfl, rfl⟩
    have hsplit := (splitBody_plain (n := 2) (body := bytes16 k)).2 ⟨rfl, rfl, rfl, rfl⟩
    rw [parseAfterKey, hsplit]
    simp only [bytes16, word16_bytes]

theorem parseGroupSet_iff {gs : GroupSet} : parseGroupSet o body = some gs ↔
    o = 0 ∧ ∃ x : Byte, x ≠ 0 ∧ (∀ g, gs.mem g = x.getLsbD g.val) ∧ body = [x] := by
  constructor
  · intro h
    unfold parseGroupSet at h
    split at h
    · next x g hsplit =>
      obtain ⟨ho, -, -, rfl⟩ := splitBody_plain.1 hsplit
      split_ifs at h with hzero
      cases h
      exact ⟨ho, x, hzero, ofByte_eq.1 rfl, rfl⟩
    · cases h
  · rintro ⟨rfl, x, hzero, hmem, rfl⟩
    have hsplit := (splitBody_plain (n := 1) (body := [x])).2 ⟨rfl, rfl, rfl, rfl⟩
    simp only [parseGroupSet, hsplit, if_neg hzero, ofByte_eq.2 hmem]

theorem parseSetGroup_iff {q : GroupFields} : parseSetGroup o body = some q ↔
    o = 0 ∧ 1 ≤ q.period ∧ q.period ≤ 60000 ∧ ∃ x : Byte, (∀ a, q.applyAgents.mem a = x.getLsbD a.val)
      ∧ body = [byteOf q.group.val, q.trigger.code, byteOf q.strobe.val] ++ bytes16 (BitVec.ofNat 16 q.period) ++ [x] := by
  constructor
  · intro h
    unfold parseSetGroup at h
    split at h
    · next gb tb nb p1 p0 x g hsplit =>
      obtain ⟨ho, -, -, rfl⟩ := splitBody_plain.1 hsplit
      split at h
      · next g' t n hg ht hn =>
        dsimp only at h
        split_ifs at h with hbad
        cases h
        obtain ⟨hlow, hhigh⟩ := not_or.1 hbad
        rw [(finOf_eq_some_byteOf (by decide)).1 hg, (finOf_eq_some_byteOf (by decide)).1 hn, triggerOf_eq_some.1 ht,
          BitVec.ofNat_toNat, BitVec.setWidth_eq, bytes16_word16]
        exact ⟨ho, Nat.one_le_iff_ne_zero.2 hlow, not_lt.1 hhigh, x, ofByte_eq.1 rfl, rfl⟩
      · cases h
    · cases h
  · rintro ⟨rfl, hlow, hhigh, x, hmem, rfl⟩
    obtain ⟨group, trigger, strobe, period, agents⟩ := q
    dsimp only at hlow hhigh hmem ⊢
    have hsplit := (splitBody_plain (n := 6) (body := [byteOf group.val, trigger.code, byteOf strobe.val]
      ++ bytes16 (BitVec.ofNat 16 period) ++ [x])).2 ⟨rfl, rfl, rfl, rfl⟩
    have hperiod : period % 2 ^ 16 = period := Nat.mod_eq_of_lt (by omega)
    have hgood : ¬ (period = 0 ∨ Config.maxApplyPeriod < period) := by
      rw [Config.maxApplyPeriod]
      omega
    rw [parseSetGroup, hsplit]
    simp only [bytes16, List.cons_append, List.nil_append, finOf_byteOf (n := 8) (by decide),
      finOf_byteOf (n := 4) (by decide), triggerOf_eq_some.2 rfl, word16_bytes, BitVec.toNat_ofNat, hperiod,
      if_neg hgood, ofByte_eq.2 hmem]

theorem parseBind_iff {c : ChannelNo} {h : Handle} :
    parseBind o body = some (c, h) ↔ o = 0 ∧ body = byteOf c.val :: encHandle h := by
  constructor
  · intro hparse
    unfold parseBind at hparse
    split at hparse
    · next cb sl inc g hsplit =>
      obtain ⟨ho, -, -, rfl⟩ := splitBody_plain.1 hsplit
      split at hparse
      · next c' hc =>
        cases hparse
        obtain ⟨hslot, -⟩ := handleOfBytes_eq.1 (rfl : handleOfBytes sl inc = _)
        rw [(finOf_eq_some_byteOf (by decide)).1 hc, encHandle, ← hslot]
        exact ⟨ho, rfl⟩
      · cases hparse
    · cases hparse
  · rintro ⟨rfl, rfl⟩
    have hsplit := (splitBody_plain (n := 3) (body := byteOf c.val :: encHandle h)).2 ⟨rfl, rfl, rfl, rfl⟩
    rw [parseBind, hsplit]
    simp only [encHandle, finOf_byteOf (n := 32) (by decide), handleOfBytes_eq.2 ⟨rfl, rfl⟩]

theorem parseSetPark_iff {c : ChannelNo} {v : Value} :
    parseSetPark o body = some (c, v) ↔ o = 0 ∧ body = byteOf c.val :: bytes16 v := by
  constructor
  · intro h
    unfold parseSetPark at h
    split at h
    · next cb hi lo g hsplit =>
      obtain ⟨ho, -, -, rfl⟩ := splitBody_plain.1 hsplit
      split at h
      · next c' hc =>
        cases h
        rw [(finOf_eq_some_byteOf (by decide)).1 hc, bytes16_word16]
        exact ⟨ho, rfl⟩
      · cases h
    · cases h
  · rintro ⟨rfl, rfl⟩
    have hsplit := (splitBody_plain (n := 3) (body := byteOf c.val :: bytes16 v)).2 ⟨rfl, rfl, rfl, rfl⟩
    rw [parseSetPark, hsplit]
    simp only [bytes16, finOf_byteOf (n := 32) (by decide), word16_bytes]

/-! ### CREATE -/

theorem open_options : ∀ o : Byte,
    (o &&& ~~~optOpen = 0 ↔ o = if decide (o &&& optOpen ≠ 0) = true then 0x01 else 0x00) := by decide

theorem options_of_open : ∀ b : Bool, (if b = true then 0x01 else 0x00 : Byte) &&& ~~~optOpen = 0
    ∧ decide ((if b = true then 0x01 else 0x00 : Byte) &&& optOpen ≠ 0) = b := by decide

theorem parseCreate_iff {q : CreateFields} : parseCreate o body = some q ↔
    o = (if q.unowned then 0x01 else 0x00) ∧ q.key ≠ 0 ∧ q.min.toInt ≤ q.max.toInt
      ∧ body = bytes16 q.key ++ [byteOf q.cls.val, byteOf q.group.val] ++ bytes16 q.min ++ bytes16 q.max
        ++ bytes16 q.live ++ bytes16 q.safe ++ [q.policy.code] := by
  have hunguarded : ∀ o : Byte, o &&& ~~~optOpen = 0 → o.getLsbD 7 = false := by decide
  constructor
  · intro h
    have hkey := key_of_parseCreate h
    have hlimits := BitVec.sle_iff_toInt_le.1 (limits_of_parseCreate h)
    unfold parseCreate at h
    split at h
    · next hsplit =>
      obtain ⟨hopt, -, hguarded⟩ := splitBody_eq_some.1 hsplit
      have hbody := hguarded.eq_of_unguarded (hunguarded o hopt)
      split at h
      · next c' g' pol hc hg hpol =>
        split_ifs at h
        cases h
        rw [(finOf_eq_some_byteOf (by decide)).1 hc, (finOf_eq_some_byteOf (by decide)).1 hg,
          policyOf_eq_some.1 hpol] at hbody
        refine ⟨(open_options o).1 hopt, hkey, hlimits, ?_⟩
        simp only [bytes16_word16]
        exact hbody
      · cases h
    · cases h
  · rintro ⟨ho, hkey, hlimits, rfl⟩
    obtain ⟨key, cls, group, min, max, live, safe, policy, unowned⟩ := q
    dsimp only at ho hkey hlimits ⊢
    have hopt : o &&& ~~~optOpen = 0 ∧ decide (o &&& optOpen ≠ 0) = unowned := by
      rw [ho]
      exact options_of_open unowned
    have hsplit := (splitBody_eq_some (n := 13) (g := none) (o := o) (body := bytes16 key
      ++ [byteOf cls.val, byteOf group.val] ++ bytes16 min ++ bytes16 max ++ bytes16 live ++ bytes16 safe
      ++ [policy.code])).2 ⟨hopt.1, rfl, .inl ⟨hunguarded o hopt.1, rfl, rfl⟩⟩
    have hgood : ¬ (key = 0 ∨ max.slt min = true) := not_or.2 ⟨hkey, by
      rw [BitVec.slt_iff_toInt_lt]
      exact not_lt.2 hlimits⟩
    rw [parseCreate, hsplit]
    simp only [bytes16, List.cons_append, List.nil_append, finOf_byteOf (n := 8) (by decide),
      policyOf_eq_some.2 rfl, word16_bytes, if_neg hgood, hopt.2]

/-! ### Kinds with a handle, and STAGE -/

theorem parseHandle_iff {acc : Byte} {h : Handle} {g : Option (BitVec 16)} :
    parseHandle acc o body = some (h, g) ↔ o &&& ~~~acc = 0 ∧ Guarded o body (encHandle h) g := by
  constructor
  · intro hparse
    unfold parseHandle at hparse
    split at hparse
    · next sl inc g' hsplit =>
      obtain ⟨ho, -, hguarded⟩ := splitBody_eq_some.1 hsplit
      cases hparse
      obtain ⟨hslot, -⟩ := handleOfBytes_eq.1 (rfl : handleOfBytes sl inc = _)
      rw [encHandle, ← hslot]
      exact ⟨ho, hguarded⟩
    · cases hparse
  · rintro ⟨ho, hguarded⟩
    have hsplit := (splitBody_eq_some (n := 2)).2 ⟨ho, (rfl : (encHandle h).length = 2), hguarded⟩
    rw [parseHandle, hsplit]
    simp only [encHandle, handleOfBytes_eq.2 ⟨rfl, rfl⟩]

theorem parseStage_iff {h : Handle} {v : Value} {g : Option (BitVec 16)} : parseStage o body = some (h, v, g) ↔
    o &&& ~~~optGuard = 0 ∧ Guarded o body (encHandle h ++ bytes16 v) g := by
  constructor
  · intro hparse
    unfold parseStage at hparse
    split at hparse
    · next sl inc hi lo g' hsplit =>
      obtain ⟨ho, -, hguarded⟩ := splitBody_eq_some.1 hsplit
      cases hparse
      obtain ⟨hslot, -⟩ := handleOfBytes_eq.1 (rfl : handleOfBytes sl inc = _)
      rw [encHandle, ← hslot, bytes16_word16]
      exact ⟨ho, hguarded⟩
    · cases hparse
  · rintro ⟨ho, hguarded⟩
    have hsplit := (splitBody_eq_some (n := 4)).2
      ⟨ho, (rfl : (encHandle h ++ bytes16 v).length = 4), hguarded⟩
    rw [parseStage, hsplit]
    simp only [encHandle, bytes16, List.cons_append, List.nil_append, handleOfBytes_eq.2 ⟨rfl, rfl⟩,
      word16_bytes]

end

theorem plain_options : ∀ o : Byte, o &&& ~~~0 = 0 ↔ o = 0 := by decide

theorem guard_options : ∀ o : Byte, o &&& ~~~optGuard = 0 ↔ o = 0 ∨ o = 0x80 := by decide

theorem claim_options : ∀ o : Byte,
    o &&& ~~~(optWait ||| optGuard) = 0 ↔ o = 0 ∨ o = 0x02 ∨ o = 0x80 ∨ o = 0x82 := by decide

theorem guarded_plain {body fields : List Byte} {g : Option (BitVec 16)} :
    Guarded 0 body fields g ↔ g = none ∧ body = fields := by
  simp [Guarded]

end Sys2Proof.Machine
end

section
/-! PROOF. The reader of TUNE (R97, R178). -/
namespace Sys2Proof.Machine

/-! ### The parts of a TUNE (R97, R178) -/

/-- The presence mask of a TUNE. -/
def TuneFields.mask (q : TuneFields) : Nat :=
  (if q.limits.isSome then 3 else 0) + (if q.safe.isSome then 4 else 0) + (if q.policy.isSome then 8 else 0)
    + (if q.group.isSome then 16 else 0)

/-- The field bytes that spell a TUNE. -/
def TuneFields.spelled (q : TuneFields) : List Byte :=
  encHandle q.handle ++ [byteOf q.mask] ++ (q.limits.toList.flatMap fun l => bytes16 l.1 ++ bytes16 l.2)
    ++ q.safe.toList.flatMap bytes16 ++ q.policy.toList.map Policy.code ++ q.group.toList.map fun g => byteOf g.val

/-- A mask that a TUNE may carry: at least one part, MIN and MAX together, no undefined bit. -/
def TuneMask (m : Byte) : Prop := m ≠ 0 ∧ m.getLsbD 0 = m.getLsbD 1 ∧ m &&& 0xE0 = 0

/-- Where the safe value, the policy and the group stand, after the parts before them. -/
def tuneSafeAt (m : Byte) : Nat := if m.getLsbD 0 then 7 else 3
def tunePolicyAt (m : Byte) : Nat := tuneSafeAt m + if m.getLsbD 2 then 2 else 0
def tuneGroupAt (m : Byte) : Nat := tunePolicyAt m + if m.getLsbD 3 then 1 else 0

/-- The policy and the group, where the mask names them, lie in range. -/
def TuneRanges (m : Byte) (bs : List Byte) : Prop :=
  (m.getLsbD 3 = true → policyOf (bs.getD (tunePolicyAt m) 0) ≠ none)
    ∧ (m.getLsbD 4 = true → finOf 8 (bs.getD (tuneGroupAt m) 0) ≠ none)

theorem tuneRanges_iff {m : Byte} {bs : List Byte} : TuneRanges m bs ↔
    ¬ ((m.getLsbD 3 = true ∧ policyOf (bs.getD (tunePolicyAt m) 0) = none)
      ∨ (m.getLsbD 4 = true ∧ finOf 8 (bs.getD (tuneGroupAt m) 0) = none)) := by
  rw [not_or, not_and, not_and]
  rfl

/-- What the reader makes of the field bytes. -/
def readTune (m : Byte) (bs : List Byte) (g : Option (BitVec 16)) : TuneFields :=
  { handle := handleOfBytes (bs.getD 0 0) (bs.getD 1 0)
    limits := if m.getLsbD 0 then some (wordAt bs 3, wordAt bs 5) else none
    safe := if m.getLsbD 2 then some (wordAt bs (tuneSafeAt m)) else none
    policy := if m.getLsbD 3 then policyOf (bs.getD (tunePolicyAt m) 0) else none
    group := if m.getLsbD 4 then finOf 8 (bs.getD (tuneGroupAt m) 0) else none
    guard := g }

section
variable {o : Byte} {body : List Byte} {q : TuneFields}

theorem parseTune_eq_some : parseTune o body = some q ↔
    TuneMask (body.getD 2 0) ∧ ∃ bs g, splitBody optGuard (3 + tuneBytes (body.getD 2 0)) o body = some (bs, g)
      ∧ TuneRanges (body.getD 2 0) bs ∧ readTune (body.getD 2 0) bs g = q := by
  unfold parseTune
  dsimp only
  constructor
  · intro h
    by_cases hmask : body.getD 2 0 = 0 ∨ (body.getD 2 0).getLsbD 0 ≠ (body.getD 2 0).getLsbD 1
        ∨ body.getD 2 0 &&& 0xE0 ≠ 0
    · rw [if_pos hmask] at h
      cases h
    · rw [if_neg hmask] at h
      obtain ⟨hzero, hmask⟩ := not_or.1 hmask
      obtain ⟨hlimits, hbits⟩ := not_or.1 hmask
      refine ⟨⟨hzero, not_not.1 hlimits, not_not.1 hbits⟩, ?_⟩
      cases hsplit : splitBody optGuard (3 + tuneBytes (body.getD 2 0)) o body with
      | none =>
        rw [hsplit] at h
        cases h
      | some x =>
        obtain ⟨bs, g⟩ := x
        rw [hsplit] at h
        by_cases hrange : TuneRanges (body.getD 2 0) bs
        · have hread := (if_neg (tuneRanges_iff.1 hrange)).symm.trans h
          exact ⟨bs, g, rfl, hrange, Option.some.inj hread⟩
        · have hnone := (if_pos (not_not.1 (mt tuneRanges_iff.2 hrange))).symm.trans h
          cases hnone
  · rintro ⟨⟨hzero, hlimits, hbits⟩, bs, g, hsplit, hrange, rfl⟩
    rw [if_neg (not_or.2 ⟨hzero, not_or.2 ⟨not_not.2 hlimits, not_not.2 hbits⟩⟩), hsplit]
    exact if_neg (tuneRanges_iff.1 hrange)

/-! ### A spelled TUNE is read -/

theorem mask_bits : ∀ b0 b2 b3 b4 : Bool,
    let m : Byte := byteOf ((if b0 then 3 else 0) + (if b2 then 4 else 0) + (if b3 then 8 else 0) + (if b4 then 16 else 0))
    m.getLsbD 0 = b0 ∧ m.getLsbD 1 = b0 ∧ m.getLsbD 2 = b2 ∧ m.getLsbD 3 = b3 ∧ m.getLsbD 4 = b4 ∧ m &&& 0xE0 = 0
      ∧ (m = 0 → b0 = false ∧ b2 = false ∧ b3 = false ∧ b4 = false) := by decide

theorem getLsbD_mask (q : TuneFields) :
    (byteOf q.mask).getLsbD 0 = q.limits.isSome ∧ (byteOf q.mask).getLsbD 1 = q.limits.isSome
      ∧ (byteOf q.mask).getLsbD 2 = q.safe.isSome ∧ (byteOf q.mask).getLsbD 3 = q.policy.isSome
      ∧ (byteOf q.mask).getLsbD 4 = q.group.isSome := by
  obtain ⟨h0, h1, h2, h3, h4, -⟩ := mask_bits q.limits.isSome q.safe.isSome q.policy.isSome q.group.isSome
  exact ⟨h0, h1, h2, h3, h4⟩

theorem tuneMask_of_mask (h : q.mask ≠ 0) : TuneMask (byteOf q.mask) := by
  obtain ⟨h0, h1, -, -, -, hbits, hzero⟩ :=
    mask_bits q.limits.isSome q.safe.isSome q.policy.isSome q.group.isSome
  refine ⟨fun hm => h ?_, h0.trans h1.symm, hbits⟩
  obtain ⟨hlimits, hsafe, hpolicy, hgroup⟩ := hzero hm
  rw [TuneFields.mask, hlimits, hsafe, hpolicy, hgroup]
  rfl

section
variable (q)

theorem length_limits : (q.limits.toList.flatMap fun l => bytes16 l.1 ++ bytes16 l.2).length =
    if q.limits.isSome then 4 else 0 := by cases q.limits <;> rfl

theorem length_safe : (q.safe.toList.flatMap bytes16).length = if q.safe.isSome then 2 else 0 := by
  cases q.safe <;> rfl

theorem length_policy : (q.policy.toList.map Policy.code).length = if q.policy.isSome then 1 else 0 := by
  cases q.policy <;> rfl

theorem length_group : (q.group.toList.map fun g => byteOf g.val).length = if q.group.isSome then 1 else 0 := by
  cases q.group <;> rfl

/-- The bytes up to the safe value, the policy and the group. -/
theorem length_before_safe : (encHandle q.handle ++ [byteOf q.mask]
    ++ (q.limits.toList.flatMap fun l => bytes16 l.1 ++ bytes16 l.2)).length = tuneSafeAt (byteOf q.mask) := by
  rw [tuneSafeAt, (getLsbD_mask q).1, List.length_append, length_limits]
  cases q.limits.isSome <;> rfl

theorem length_before_policy : (encHandle q.handle ++ [byteOf q.mask]
    ++ (q.limits.toList.flatMap fun l => bytes16 l.1 ++ bytes16 l.2) ++ q.safe.toList.flatMap bytes16).length =
      tunePolicyAt (byteOf q.mask) := by
  obtain ⟨-, -, h2, -⟩ := getLsbD_mask q
  rw [tunePolicyAt, h2, List.length_append, length_before_safe, length_safe]

theorem length_before_group : (encHandle q.handle ++ [byteOf q.mask]
    ++ (q.limits.toList.flatMap fun l => bytes16 l.1 ++ bytes16 l.2) ++ q.safe.toList.flatMap bytes16
    ++ q.policy.toList.map Policy.code).length = tuneGroupAt (byteOf q.mask) := by
  obtain ⟨-, -, -, h3, -⟩ := getLsbD_mask q
  rw [tuneGroupAt, h3, List.length_append, length_before_policy, length_policy]

theorem length_spelled : q.spelled.length = 3 + tuneBytes (byteOf q.mask) := by
  obtain ⟨h0, h1, h2, h3, h4⟩ := getLsbD_mask q
  rw [TuneFields.spelled, List.length_append, length_before_group, length_group, tuneGroupAt, tunePolicyAt, tuneSafeAt,
    tuneBytes, h0, h1, h2, h3, h4]
  cases q.limits.isSome <;> simp only [if_true, if_false, Bool.false_eq_true] <;> omega

end

/-- Reading at the place where the bytes before end. -/
theorem getD_append_at {X Y : List Byte} {n : Nat} (h : X.length = n) (k : Nat) :
    (X ++ Y).getD (n + k) 0 = Y.getD k 0 := by
  rw [List.getD_append_right _ _ _ _ (by omega), h, Nat.add_sub_cancel_left]

theorem wordAt_append_at {X Y : List Byte} {n : Nat} (h : X.length = n) : wordAt (X ++ Y) n = wordAt Y 0 :=
  congrArg₂ word16 (getD_append_at h 0) (getD_append_at h 1)

theorem safe_of_spelled (q : TuneFields) {v : Value} (h : q.safe = some v) :
    wordAt q.spelled (tuneSafeAt (byteOf q.mask)) = v := by
  have hbytes : q.spelled = (encHandle q.handle ++ [byteOf q.mask]
      ++ (q.limits.toList.flatMap fun l => bytes16 l.1 ++ bytes16 l.2)) ++ (q.safe.toList.flatMap bytes16
        ++ (q.policy.toList.map Policy.code ++ q.group.toList.map fun g => byteOf g.val)) := by
    simp only [TuneFields.spelled, List.append_assoc]
  rw [hbytes, wordAt_append_at (length_before_safe q), h]
  exact word16_bytes v

theorem policy_of_spelled (q : TuneFields) {x : Policy} (h : q.policy = some x) :
    policyOf (q.spelled.getD (tunePolicyAt (byteOf q.mask)) 0) = some x := by
  rw [TuneFields.spelled, List.append_assoc _ (q.policy.toList.map Policy.code)]
  refine policyOf_eq_some.2 ((getD_append_at (length_before_policy q) 0).trans ?_)
  rw [h]
  rfl

theorem group_of_spelled (q : TuneFields) {x : GroupNo} (h : q.group = some x) :
    finOf 8 (q.spelled.getD (tuneGroupAt (byteOf q.mask)) 0) = some x := by
  rw [TuneFields.spelled]
  refine (finOf_eq_some_byteOf (by decide)).2 ((getD_append_at (length_before_group q) 0).trans ?_)
  rw [h]
  rfl

theorem limits_of_spelled (q : TuneFields) {l : Value × Value} (h : q.limits = some l) :
    (wordAt q.spelled 3, wordAt q.spelled 5) = l := by
  rw [TuneFields.spelled, h]
  exact Prod.ext (word16_bytes l.1) (word16_bytes l.2)

/-- An item that the mask names where it is present is read back. -/
theorem ite_isSome {α : Type} {x : Option α} {y : Option α} (h : ∀ v, x = some v → y = some v) :
    (if x.isSome then y else none) = x := by
  cases x with
  | none => rfl
  | some v => exact h v rfl

theorem readTune_spelled (q : TuneFields) : readTune (byteOf q.mask) q.spelled q.guard = q := by
  obtain ⟨h0, -, h2, h3, h4⟩ := getLsbD_mask q
  have hhandle : handleOfBytes (q.spelled.getD 0 0) (q.spelled.getD 1 0) = q.handle :=
    handleOfBytes_eq.2 ⟨rfl, rfl⟩
  rw [readTune, hhandle, h0, h2, h3, h4, ite_isSome fun l hl => congrArg some (limits_of_spelled q hl),
    ite_isSome fun v hv => congrArg some (safe_of_spelled q hv), ite_isSome fun x hx => policy_of_spelled q hx,
    ite_isSome fun x hx => group_of_spelled q hx]

theorem parseTune_of_spelled (ho : o &&& ~~~optGuard = 0) (hmask : q.mask ≠ 0)
    (hbody : Guarded o body q.spelled q.guard) : parseTune o body = some q := by
  have hm : body.getD 2 0 = byteOf q.mask := by
    rcases hbody with ⟨-, -, rfl⟩ | ⟨-, w, -, rfl⟩ <;> rfl
  obtain ⟨-, -, -, h3, h4⟩ := getLsbD_mask q
  rw [parseTune_eq_some, hm]
  refine ⟨tuneMask_of_mask hmask, q.spelled, q.guard, splitBody_eq_some.2 ⟨ho, length_spelled q, hbody⟩,
    ⟨fun hbit => ?_, fun hbit => ?_⟩, readTune_spelled q⟩
  · rw [h3] at hbit
    obtain ⟨x, hx⟩ := Option.isSome_iff_exists.1 hbit
    rw [policy_of_spelled q hx]
    nofun
  · rw [h4] at hbit
    obtain ⟨x, hx⟩ := Option.isSome_iff_exists.1 hbit
    rw [group_of_spelled q hx]
    nofun

/-! ### What is read was spelled -/

theorem exists_limits {L : List Byte} {b : Bool} (h : L.length = if b then 4 else 0) :
    ∃ x : Option (Value × Value), x.isSome = b ∧ L = x.toList.flatMap fun l => bytes16 l.1 ++ bytes16 l.2 := by
  cases b with
  | false => exact ⟨none, rfl, List.length_eq_zero_iff.1 h⟩
  | true =>
    match L, h with
    | [a, b, c, d], _ =>
      refine ⟨some (word16 a b, word16 c d), rfl, ?_⟩
      simp [bytes16_word16]

theorem exists_safe {L : List Byte} {b : Bool} (h : L.length = if b then 2 else 0) :
    ∃ x : Option Value, x.isSome = b ∧ L = x.toList.flatMap bytes16 := by
  cases b with
  | false => exact ⟨none, rfl, List.length_eq_zero_iff.1 h⟩
  | true =>
    obtain ⟨hi, lo, rfl⟩ := List.length_eq_two.1 h
    refine ⟨some (word16 hi lo), rfl, ?_⟩
    simp [bytes16_word16]

theorem exists_policy {L : List Byte} {b : Bool} (h : L.length = if b then 1 else 0)
    (hrange : b = true → policyOf (L.getD 0 0) ≠ none) :
    ∃ x : Option Policy, x.isSome = b ∧ L = x.toList.map Policy.code := by
  cases b with
  | false => exact ⟨none, rfl, List.length_eq_zero_iff.1 h⟩
  | true =>
    obtain ⟨c, rfl⟩ := List.length_eq_one_iff.1 h
    obtain ⟨x, hx⟩ := Option.ne_none_iff_exists'.1 (hrange rfl)
    exact ⟨some x, rfl, congrArg (fun c => [c]) (policyOf_eq_some.1 hx)⟩

theorem exists_group {L : List Byte} {b : Bool} (h : L.length = if b then 1 else 0)
    (hrange : b = true → finOf 8 (L.getD 0 0) ≠ none) :
    ∃ x : Option GroupNo, x.isSome = b ∧ L = x.toList.map fun g => byteOf g.val := by
  cases b with
  | false => exact ⟨none, rfl, List.length_eq_zero_iff.1 h⟩
  | true =>
    obtain ⟨c, rfl⟩ := List.length_eq_one_iff.1 h
    obtain ⟨x, hx⟩ := Option.ne_none_iff_exists'.1 (hrange rfl)
    exact ⟨some x, rfl, congrArg (fun c => [c]) ((finOf_eq_some_byteOf (by decide)).1 hx)⟩

/-- A list cut after its first bytes. -/
theorem exists_cut {t : List Byte} {n m : Nat} (h : t.length = n + m) :
    ∃ x y, t = x ++ y ∧ x.length = n ∧ y.length = m :=
  ⟨t.take n, t.drop n, (List.take_append_drop n t).symm, by rw [List.length_take]; omega,
    by rw [List.length_drop]; omega⟩

theorem byteOf_mask : ∀ m : Byte, m &&& 0xE0 = 0 → m.getLsbD 0 = m.getLsbD 1 → byteOf ((if m.getLsbD 0 then 3 else 0)
    + (if m.getLsbD 2 then 4 else 0) + (if m.getLsbD 3 then 8 else 0) + (if m.getLsbD 4 then 16 else 0)) = m := by decide

/-- The field bytes that pass the reader's tests are those of some TUNE. -/
theorem exists_spelled {m sl inc : Byte} {t : List Byte} (hmask : TuneMask m) (hlen : t.length = tuneBytes m)
    (hranges : TuneRanges m (sl :: inc :: m :: t)) (g : Option (BitVec 16)) :
    ∃ q : TuneFields, q.mask ≠ 0 ∧ q.spelled = sl :: inc :: m :: t ∧ q.guard = g := by
  obtain ⟨hzero, hlimits, hbits⟩ := hmask
  have hlen : t.length = (if m.getLsbD 0 then 4 else 0) + ((if m.getLsbD 2 then 2 else 0)
      + ((if m.getLsbD 3 then 1 else 0) + if m.getLsbD 4 then 1 else 0)) := by
    rw [hlen, tuneBytes, ← hlimits]
    cases m.getLsbD 0 <;> simp only [if_true, if_false, Bool.false_eq_true] <;> omega
  obtain ⟨L, t, rfl, hL, hlen⟩ := exists_cut hlen
  obtain ⟨S, t, rfl, hS, hlen⟩ := exists_cut hlen
  obtain ⟨P, G, rfl, hP, hG⟩ := exists_cut hlen
  have hpolicyAt : (sl :: inc :: m :: (L ++ S)).length = tunePolicyAt m := by
    simp only [List.length_cons, List.length_append, hL, hS, tunePolicyAt, tuneSafeAt]
    cases m.getLsbD 0 <;> simp only [if_true, if_false, Bool.false_eq_true] <;> omega
  have hgroupAt : (sl :: inc :: m :: (L ++ S ++ P)).length = tuneGroupAt m := by
    rw [tuneGroupAt, ← hpolicyAt, ← hP]
    simp only [List.length_cons, List.length_append]
    omega
  obtain ⟨x, hx, rfl⟩ := exists_limits hL
  obtain ⟨y, hy, rfl⟩ := exists_safe hS
  obtain ⟨z, hz, rfl⟩ := exists_policy hP fun hbit => by
    obtain ⟨c, rfl⟩ := List.length_eq_one_iff.1 (hP.trans (if_pos hbit))
    have hpolicy := hranges.1 hbit
    rwa [← List.append_assoc, ← List.cons_append, ← List.cons_append, ← List.cons_append,
      ← Nat.add_zero (tunePolicyAt m), getD_append_at hpolicyAt] at hpolicy
  obtain ⟨w, hw, rfl⟩ := exists_group hG fun hbit => by
    have hgroup := hranges.2 hbit
    rwa [← List.append_assoc, ← List.append_assoc, ← List.cons_append, ← List.cons_append, ← List.cons_append,
      ← Nat.add_zero (tuneGroupAt m), getD_append_at hgroupAt] at hgroup
  have hbyte : byteOf (TuneFields.mask ⟨handleOfBytes sl inc, x, y, z, w, g⟩) = m := by
    rw [TuneFields.mask, hx, hy, hz, hw]
    exact byteOf_mask m hbits hlimits
  refine ⟨⟨handleOfBytes sl inc, x, y, z, w, g⟩, fun hnone => hzero ?_, ?_, rfl⟩
  · rw [← hbyte, hnone]
    rfl
  · obtain ⟨hslot, -⟩ := handleOfBytes_eq.1 (rfl : handleOfBytes sl inc = _)
    rw [TuneFields.spelled, hbyte, encHandle, ← hslot]
    simp only [List.append_assoc, List.cons_append, List.nil_append]
    rfl

theorem parseTune_iff : parseTune o body = some q ↔
    o &&& ~~~optGuard = 0 ∧ q.mask ≠ 0 ∧ Guarded o body q.spelled q.guard := by
  refine ⟨fun h => ?_, fun ⟨ho, hmask, hbody⟩ => parseTune_of_spelled ho hmask hbody⟩
  obtain ⟨hmask, bs, g, hsplit, hranges, -⟩ := parseTune_eq_some.1 h
  obtain ⟨ho, hlen, hbody⟩ := splitBody_eq_some.1 hsplit
  obtain ⟨A, t, rfl, hA, ht⟩ := exists_cut hlen
  obtain ⟨sl, inc, m, rfl⟩ := List.length_eq_three.1 hA
  have hm : body.getD 2 0 = m := by
    rcases hbody with ⟨-, -, rfl⟩ | ⟨-, w, -, rfl⟩ <;> rfl
  rw [hm] at hmask hranges ht
  obtain ⟨q', hmask', hspelled, hguard⟩ := exists_spelled hmask ht hranges g
  have hbody' : Guarded o body q'.spelled q'.guard := by
    rw [hspelled, hguard]
    exact hbody
  have hsame : q = q' := Option.some.inj (h.symm.trans (parseTune_of_spelled ho hmask' hbody'))
  rw [hsame]
  exact ⟨ho, hmask', hbody'⟩

end

end Sys2Proof.Machine
end

section
/-! PROOF. Check 4: what a reader reads fits its kind, so a request that does not fit is refused BAD_FIELD (R40, R179). -/
namespace Sys2Proof.Machine

/-! ### Numbers read off bytes -/

theorem toNat_byteOf {n : Nat} (hn : n ≤ 256) (i : Fin n) : (byteOf i.val).toNat = i.val :=
  (BitVec.toNat_ofNat _ _).trans (Nat.mod_eq_of_lt (by omega))

theorem toNat_word16 (hi lo : Byte) : (word16 hi lo).toNat = hi.toNat * 256 + lo.toNat := by
  rw [word16, BitVec.toNat_append, ← Nat.shiftLeft_add_eq_or_of_lt lo.isLt, Nat.shiftLeft_eq]

theorem toNat_bytes16 (v : BitVec 16) : (v.extractLsb' 8 8).toNat * 256 + (v.extractLsb' 0 8).toNat = v.toNat := by
  rw [← toNat_word16, word16_bytes]

theorem toNat_policyCode (x : Policy) : x.code.toNat < 3 := by
  cases x <;> decide

theorem toNat_triggerCode (x : Trigger) : x.code.toNat < 4 := by
  cases x <;> decide

theorem toNat_lt_128 : ∀ x : Byte, x.getLsbD 7 = false → x.toNat < 128 := by decide

theorem toNat_ne_zero {n : Nat} {v : BitVec n} (h : v ≠ 0) : v.toNat ≠ 0 := fun hzero =>
  h (BitVec.eq_of_toNat_eq hzero)

theorem policyOf_ne_none {b : Byte} (h : policyOf b ≠ none) : b.toNat < 3 := by
  obtain ⟨x, hx⟩ := Option.ne_none_iff_exists'.1 h
  rw [policyOf_eq_some.1 hx]
  exact toNat_policyCode x

theorem finOf_ne_none {n : Nat} {b : Byte} (h : finOf n b ≠ none) : b.toNat < n := by
  obtain ⟨x, hx⟩ := Option.ne_none_iff_exists'.1 h
  rw [finOf_eq_some.1 hx]
  exact x.isLt

/-! ### What fits a kind -/

section
variable {k : ReqKind} {a : Agent} {o : Byte} {body fields : List Byte} {g : Option (BitVec 16)}

/-- The options, the byte count and the values, for a body that spells the fields. -/
theorem fieldsFit_of_guarded (hopt : o &&& ~~~k.optionsAccepted = 0) (hbody : Guarded o body fields g)
    (hbytes : k.fieldBytes body = fields.length) (hvalues : k.ValuesFit a body) : k.FieldsFit a o body :=
  ⟨hopt, by rw [hbody.length, hbytes], hvalues⟩

/-- A kind that accepts no option. -/
theorem fieldsFit_of_plain (hbytes : k.fieldBytes body = body.length) (hvalues : k.ValuesFit a body) :
    k.FieldsFit a 0 body :=
  fieldsFit_of_guarded (g := none) BitVec.zero_and (guarded_plain.2 ⟨rfl, rfl⟩) hbytes hvalues

theorem fieldsFit_tune {q : TuneFields} (h : parseTune o body = some q) : ReqKind.tune.FieldsFit a o body := by
  obtain ⟨⟨hzero, hlimits, hbits⟩, bs, g, hsplit, ⟨hpolicy, hgroup⟩, -⟩ := parseTune_eq_some.1 h
  obtain ⟨ho, hlen, hbody⟩ := splitBody_eq_some.1 hsplit
  have hsame : ∀ n, n < bs.length → body.getD n 0 = bs.getD n 0 := fun n hn => by
    rcases hbody with ⟨-, -, rfl⟩ | ⟨-, w, -, rfl⟩
    · rfl
    · exact List.getD_append _ _ _ _ hn
  have hmask : ∀ m : Byte, m &&& 0xE0 = 0 → m.toNat < 32 := by decide
  have hone : 1 ≤ (body.getD 2 0).toNat := Nat.one_le_iff_ne_zero.2 (toNat_ne_zero hzero)
  have hsafeAt : 3 + (if (body.getD 2 0).getLsbD 0 then 4 else 0) = tuneSafeAt (body.getD 2 0) := by
    rw [tuneSafeAt]
    split <;> rfl
  have hbytes : ReqKind.tune.fieldBytes body = bs.length := by
    rw [hlen]
    simp only [ReqKind.fieldBytes, tuneBytes, Nat.add_assoc]
  refine fieldsFit_of_guarded ho hbody hbytes ⟨hone, hmask _ hbits, hlimits, fun hbit => ?_, fun hbit => ?_⟩
  · have hat : tunePolicyAt (body.getD 2 0) < bs.length := by
      rw [hlen, tunePolicyAt, ← hsafeAt, tuneBytes, ← hlimits, hbit]
      cases (body.getD 2 0).getLsbD 0 <;> simp only [if_true, if_false, Bool.false_eq_true] <;> omega
    rw [hsafeAt]
    show (body.getD (tunePolicyAt (body.getD 2 0)) 0).toNat < 3
    rw [hsame _ hat]
    exact policyOf_ne_none (hpolicy hbit)
  · have hat : tuneGroupAt (body.getD 2 0) < bs.length := by
      rw [hlen, tuneGroupAt, tunePolicyAt, ← hsafeAt, tuneBytes, ← hlimits, hbit]
      cases (body.getD 2 0).getLsbD 0 <;> simp only [if_true, if_false, Bool.false_eq_true] <;> omega
    rw [hsafeAt]
    show (body.getD (tuneGroupAt (body.getD 2 0)) 0).toNat < 8
    rw [hsame _ hat]
    exact finOf_ne_none (hgroup hbit)

theorem fieldsFit_create {q : CreateFields} (h : parseCreate o body = some q) : ReqKind.create.FieldsFit a o body := by
  obtain ⟨ho, hkey, hlimits, hbody⟩ := parseCreate_iff.1 h
  obtain ⟨hopt, -⟩ := options_of_open q.unowned
  have hbit : o.getLsbD 7 = false := by
    rw [ho]
    cases q.unowned <;> rfl
  rw [← ho] at hopt
  refine fieldsFit_of_guarded hopt (.inl ⟨hbit, rfl, rfl⟩) ?_ ?_
  · rw [hbody]
    rfl
  · rw [hbody]
    refine ⟨?_, ?_, ?_, ?_, toNat_policyCode q.policy⟩
    · show (q.key.extractLsb' 8 8).toNat * 256 + (q.key.extractLsb' 0 8).toNat ≠ 0
      rw [toNat_bytes16]
      exact toNat_ne_zero hkey
    · show (byteOf q.cls.val).toNat < 8
      rw [toNat_byteOf (by decide)]
      exact q.cls.isLt
    · show (byteOf q.group.val).toNat < 8
      rw [toNat_byteOf (by decide)]
      exact q.group.isLt
    · show (word16 (q.min.extractLsb' 8 8) (q.min.extractLsb' 0 8)).toInt
        ≤ (word16 (q.max.extractLsb' 8 8) (q.max.extractLsb' 0 8)).toInt
      rw [word16_bytes, word16_bytes]
      exact hlimits

theorem fieldsFit_setGroup {q : GroupFields} (h : parseSetGroup o body = some q) :
    ReqKind.setGroup.FieldsFit a o body := by
  obtain ⟨rfl, hlow, hhigh, x, -, rfl⟩ := parseSetGroup_iff.1 h
  have hperiod : (BitVec.ofNat 16 q.period).toNat = q.period :=
    (BitVec.toNat_ofNat _ _).trans (Nat.mod_eq_of_lt (by omega))
  have hword := (toNat_bytes16 (BitVec.ofNat 16 q.period)).trans hperiod
  refine fieldsFit_of_plain rfl ⟨?_, toNat_triggerCode q.trigger, ?_, ?_, ?_⟩
  · show (byteOf q.group.val).toNat < 8
    rw [toNat_byteOf (by decide)]
    exact q.group.isLt
  · show (byteOf q.strobe.val).toNat < 4
    rw [toNat_byteOf (by decide)]
    exact q.strobe.isLt
  · exact hlow.trans_eq hword.symm
  · exact hword.trans_le hhigh

theorem fieldsFit_setRights {b : Agent} {c : ClassNo} {x : RightSet} (h : parseSetRights o body = some (b, c, x)) :
    ReqKind.setRights.FieldsFit a o body := by
  obtain ⟨rfl, hb, y, hbit, -, rfl⟩ := parseSetRights_iff.1 h
  refine fieldsFit_of_plain rfl ⟨?_, ?_, ?_, toNat_lt_128 y hbit⟩
  · show 1 ≤ (byteOf b.val).toNat
    rw [toNat_byteOf (by decide)]
    exact Nat.one_le_iff_ne_zero.2 fun hzero => hb (Fin.ext hzero)
  · show (byteOf b.val).toNat < 8
    rw [toNat_byteOf (by decide)]
    exact b.isLt
  · show (byteOf c.val).toNat < 8
    rw [toNat_byteOf (by decide)]
    exact c.isLt

theorem fieldsFit_attach {n : Nat} (h : parseAttach a o body = some n) : ReqKind.attach.FieldsFit a o body := by
  obtain ⟨rfl, hrange, rfl⟩ := parseAttach_iff.1 h
  have hn : (BitVec.ofNat 16 n).toNat = n := (BitVec.toNat_ofNat _ _).trans (Nat.mod_eq_of_lt (by omega))
  have hword := (toNat_bytes16 (BitVec.ofNat 16 n)).trans hn
  refine fieldsFit_of_plain rfl ?_
  exact hrange.imp (fun ⟨hlow, hhigh⟩ => ⟨hlow.trans_eq hword.symm, hword.trans_le hhigh⟩)
    fun ⟨hzero, hagent⟩ => ⟨hword.trans hzero, hagent⟩

theorem fieldsFit_lookup {key : Key} (h : parseKey o body = some key) : ReqKind.lookup.FieldsFit a o body := by
  obtain ⟨rfl, hzero, rfl⟩ := parseKey_iff.1 h
  refine fieldsFit_of_plain rfl ?_
  show (key.extractLsb' 8 8).toNat * 256 + (key.extractLsb' 0 8).toNat ≠ 0
  rw [toNat_bytes16]
  exact toNat_ne_zero hzero

theorem fieldsFit_channel {c : ChannelNo} {rest : List Byte} (hbytes : k.fieldBytes (byteOf c.val :: rest) = rest.length + 1)
    (hk : k = .bind ∨ k = .unbind ∨ k = .setPark ∨ k = .queryChannel) : k.FieldsFit a 0 (byteOf c.val :: rest) := by
  have hvalue : ((byteOf c.val :: rest).getD 0 0).toNat < 32 := by
    show (byteOf c.val).toNat < 32
    rw [toNat_byteOf (by decide)]
    exact c.isLt
  refine fieldsFit_of_plain hbytes ?_
  rcases hk with rfl | rfl | rfl | rfl <;> exact hvalue

end

/-! ### Reading, by kind -/

/-- Whether the kind's reader reads the body. -/
def ReqKind.reads (k : ReqKind) (a : Agent) (o : Byte) (body : List Byte) : Bool :=
  match k with
  | .attach => (parseAttach a o body).isSome
  | .detach | .keepalive | .restart | .fetchAttention | .linkResume => (parseNone o body).isSome
  | .queryAgent => (parseAgent o body).isSome
  | .queryGroup => (parseGroup o body).isSome
  | .setRights => (parseSetRights o body).isSome
  | .create => (parseCreate o body).isSome
  | .retire | .release | .unstage => (parseHandle optGuard o body).isSome
  | .claim => (parseHandle (optWait ||| optGuard) o body).isSome
  | .read | .cancelClaim | .revoke | .restore | .watch | .unwatch => (parseHandle 0 o body).isSome
  | .lookup => (parseKey o body).isSome
  | .enumerate => (parseAfterKey o body).isSome
  | .stage => (parseStage o body).isSome
  | .tune => (parseTune o body).isSome
  | .apply => (parseGroupSet o body).isSome
  | .setGroup => (parseSetGroup o body).isSome
  | .bind => (parseBind o body).isSome
  | .unbind | .queryChannel => (parseChannel o body).isSome
  | .setPark => (parseSetPark o body).isSome

/-- A body that the kind's reader does not read is refused before anything else (R40). -/
theorem carryOf_of_unread {k : ReqKind} {q : Request} (h : k.reads q.agent q.options q.body = false) (s : State) :
    carryOf k q s = refuse s .badField := by
  cases k
  all_goals
    have hnone := Option.isNone_iff_eq_none.1 (Option.isSome_eq_false_iff.1 h)
    simp only [carryOf, carryAttach, carryDetach, carryKeepalive, carryQueryAgent, carryRestart, carrySetRights,
      carryCreate, carryRetire, carryLookup, carryRead, carryEnumerate, carryClaim, carryRelease, carryCancelClaim,
      carryRevoke, carryRestore, carryStage, carryUnstage, carryTune, carryApply, carrySetGroup, carryQueryGroup,
      carryWatch, carryUnwatch, carryFetchAttention, carryBind, carryUnbind, carrySetPark, carryQueryChannel,
      carryLinkResume, hnone]

theorem fieldsFit_of_reads {k : ReqKind} {a : Agent} {o : Byte} {body : List Byte} (h : k.reads a o body = true) :
    k.FieldsFit a o body := by
  cases k
  all_goals obtain ⟨x, hparse⟩ := Option.isSome_iff_exists.1 h
  case attach => exact fieldsFit_attach hparse
  case detach | keepalive | restart | fetchAttention | linkResume =>
    obtain ⟨rfl, rfl⟩ := parseNone_iff.1 hparse
    exact fieldsFit_of_plain rfl trivial
  case queryAgent | queryGroup =>
    obtain ⟨rfl, rfl⟩ := parseAgent_iff.1 hparse
    refine fieldsFit_of_plain rfl ?_
    show (byteOf x.val).toNat < 8
    rw [toNat_byteOf (by decide)]
    exact x.isLt
  case setRights => exact fieldsFit_setRights hparse
  case create => exact fieldsFit_create hparse
  case retire | release | unstage | claim | read | cancelClaim | revoke | restore | watch | unwatch =>
    obtain ⟨ho, hbody⟩ := parseHandle_iff.1 hparse
    exact fieldsFit_of_guarded ho hbody rfl trivial
  case stage =>
    obtain ⟨ho, hbody⟩ := parseStage_iff.1 hparse
    exact fieldsFit_of_guarded ho hbody rfl trivial
  case lookup => exact fieldsFit_lookup hparse
  case enumerate =>
    obtain ⟨rfl, rfl⟩ := parseAfterKey_iff.1 hparse
    exact fieldsFit_of_plain rfl trivial
  case tune => exact fieldsFit_tune hparse
  case apply =>
    obtain ⟨rfl, y, hzero, -, rfl⟩ := parseGroupSet_iff.1 hparse
    exact fieldsFit_of_plain rfl (toNat_ne_zero hzero)
  case setGroup => exact fieldsFit_setGroup hparse
  case bind =>
    obtain ⟨rfl, rfl⟩ := parseBind_iff.1 hparse
    exact fieldsFit_channel rfl (by simp)
  case unbind | queryChannel =>
    obtain ⟨rfl, rfl⟩ := parseChannel_iff.1 hparse
    exact fieldsFit_channel rfl (by simp)
  case setPark =>
    obtain ⟨rfl, rfl⟩ := parseSetPark_iff.1 hparse
    exact fieldsFit_channel rfl (by simp)

theorem carryOf_of_misfit {k : ReqKind} {q : Request} (h : ¬ k.FieldsFit q.agent q.options q.body) (s : State) :
    carryOf k q s = refuse s .badField :=
  carryOf_of_unread (Bool.eq_false_iff.2 fun hreads => h (fieldsFit_of_reads hreads)) s

/-! ### The obligation -/

theorem policy_code_eq (x : Policy) : x.code = if x = .hold then 0 else if x = .safeNow then 1 else 2 := by
  cases x <;> rfl

theorem trigger_code_eq (x : Trigger) :
    x.code = if x = .onStage then 0 else if x = .strobe then 1 else if x = .period then 2 else 3 := by
  cases x <;> rfl

/-- Settles O20: the readers by their lemmas, and check 4 by what they read. -/
theorem fieldsReadFromTheBody : Obligations.FieldsReadFromTheBody := by
  unfold Obligations.FieldsReadFromTheBody
  intro two one handle policy trigger guarded
  have hpolicy : Policy.code = policy := funext policy_code_eq
  have htrigger : Trigger.code = trigger := funext trigger_code_eq
  refine ⟨rfl, fun n a e t k o c body => ⟨rfl, rfl, rfl, rfl, rfl, ?_⟩, fun o body => ?_, fun k p f a s hmisfit =>
    ⟨fun hadm => exec_of_refused hadm (carryOf_of_misfit hmisfit _), fun hk hoffers hagent => ?_⟩⟩
  · show (body ++ [c]).dropLast = body
    exact List.dropLast_concat
  · refine ⟨parseNone_iff, fun a n => parseAttach_iff, fun a => parseAgent_iff, fun a c rs => parseSetRights_iff,
      fun q => ?_, fun k => parseKey_iff, fun k => parseAfterKey_iff, fun h g => ?_, fun h g => ?_, fun h g => ?_,
      fun h v g => ?_, fun q => ?_, fun gs => parseGroupSet_iff, fun q => ?_, fun g => parseGroup_iff,
      fun c h => parseBind_iff, fun c => parseChannel_iff, fun c v => parseSetPark_iff⟩
    · rw [← hpolicy]
      exact parseCreate_iff
    · rw [parseHandle_iff, plain_options]
      refine and_congr_right fun ho => ?_
      subst ho
      exact guarded_plain
    · rw [parseHandle_iff, guard_options]
      rfl
    · rw [parseHandle_iff, claim_options]
      rfl
    · rw [parseStage_iff, guard_options]
      rfl
    · rw [parseTune_iff, guard_options, ← hpolicy]
      rfl
    · rw [← htrigger]
      exact parseSetGroup_iff
  · subst hk
    have hcarry := carryOf_of_misfit (q := requestOf f a p 0) hmisfit (s.takeFrom p)
    have hexec := exec_attach_of_offers hoffers hagent
    rw [show carryAttach (requestOf f a p 0) (s.takeFrom p) = refuse (s.takeFrom p) .badField from hcarry] at hexec
    exact hexec

end Sys2Proof.Machine
end
